-- ==== Sys2Proof/Word.lean ====
section
/-! DEFINITION. The two widths of the core (00_scope.md R5): bytes for registers and memory, words for addresses and
the program counter. Their plainest arithmetic is that of `BitVec`: `+` and `-` wrap, as rule R6's `+8` and `+16`. -/

namespace Sys2Proof

/-- An unsigned 8-bit value, the spec's `u8` (00_scope.md R6). -/
abbrev Byte := BitVec 8

/-- An unsigned 16-bit value, the spec's `u16` (00_scope.md R6). -/
abbrev Word := BitVec 16

end Sys2Proof
end

