-- ==== Sys2Proof/Machine/Bits.lean ====
section
/-! DEFINITION. Bit-field, concatenation and extension helpers (00_scope.md R6). -/

namespace Sys2Proof

/-- `lo8(w) = w[7:0]` (R6). -/
def lo8 (w : Word) : Byte := w.extractLsb' 0 8

/-- `hi8(w) = w[15:8]` (R6). -/
def hi8 (w : Word) : Byte := w.extractLsb' 8 8

/-- The 16-bit concatenation of a high and a low byte (R6): `h * 256 + l`. -/
def mk16 (h l : Byte) : Word := BitVec.ofNat 16 (h.toNat * 256 + l.toNat)

/-- A byte as a word whose high byte is zero (30_encoding.md R83). -/
def zext16 (v : Byte) : Word := v.setWidth 16

/-- A byte as a signed displacement, widened to a word (00_scope.md R7, `sext_8`). -/
def sext16 (v : Byte) : Word := v.signExtend 16

end Sys2Proof
end

