-- ==== Sys2Proof/Syntax.lean ====
section
/-! DEFINITION. The instruction set as syntax (30_encoding.md): one constructor of `Instr` per row of
spec/opcode_table.json, the 56 mnemonics and the thirteen mode codes (rule R82), the length of a mode (rule R86),
the nine resolvable addressing forms (40_engine_and_addressing.md R110 to R118), and for each instruction the
mnemonic, the mode and the addressing form that its table row gives it (rule R84). -/

namespace Sys2Proof

/-- The 56 mnemonics (30_encoding.md R84). -/
inductive Mnemonic where
  | adc | and | asl | bcc | bcs | beq | bit | bmi | bne | bpl | brk | bvc | bvs | clc
  | cld | cli | clv | cmp | cpx | cpy | dec | dex | dey | eor | inc | inx | iny | jmp
  | jsr | lda | ldx | ldy | lsr | nop | ora | pha | php | pla | plp | rol | ror | rti
  | rts | sbc | sec | sed | sei | sta | stx | sty | tax | tay | tsx | txa | txs | tya
deriving DecidableEq, Repr

/-- The thirteen mode codes (30_encoding.md R82). -/
inductive Mode where
  | imp | acc | imm | zp | zpx | zpy | abs | abx | aby | izx | izy | rel | ind
deriving DecidableEq, Repr

/-- The length in bytes of an instruction of each mode (30_encoding.md R86). -/
def Mode.length : Mode → Nat
  | .imp | .acc => 1
  | .imm | .zp | .zpx | .zpy | .izx | .izy | .rel => 2
  | .abs | .abx | .aby | .ind => 3

/-- The nine modes the resolver is asked about, with the operand each carries (30_encoding.md R82, R83).
IMP, ACC, REL and IND are not here: the resolver cannot be asked for an address in a "no operand" mode
(60_exceptions.md R243), so the case is not representable. -/
inductive Addressing where
  | imm (v : Byte) | zp (b : Byte) | zpx (b : Byte) | zpy (b : Byte)
  | abs (w : Word) | abx (w : Word) | aby (w : Word) | izx (b : Byte) | izy (b : Byte)
deriving DecidableEq, Repr

/-- The mode code of an addressing form. -/
def Addressing.mode : Addressing → Mode
  | .imm _ => .imm | .zp _ => .zp | .zpx _ => .zpx | .zpy _ => .zpy
  | .abs _ => .abs | .abx _ => .abx | .aby _ => .aby | .izx _ => .izx | .izy _ => .izy

/-- The instructions: one constructor per row of the opcode table (30_encoding.md R84). A one-byte operand is the
operand byte `b1` as it stands; a two-byte operand is the word of `b2` and `b1`, high byte first (rule R83). -/
inductive Instr where
  -- Load and store (41_load_store.md)
  | ldaImm (v : Byte) | ldaZp (b : Byte) | ldaZpx (b : Byte) | ldaAbs (w : Word) | ldaAbx (w : Word)
  | ldaAby (w : Word) | ldaIzx (b : Byte) | ldaIzy (b : Byte)
  | ldxImm (v : Byte) | ldxZp (b : Byte) | ldxZpy (b : Byte) | ldxAbs (w : Word) | ldxAby (w : Word)
  | ldyImm (v : Byte) | ldyZp (b : Byte) | ldyZpx (b : Byte) | ldyAbs (w : Word) | ldyAbx (w : Word)
  | staZp (b : Byte) | staZpx (b : Byte) | staAbs (w : Word) | staAbx (w : Word) | staAby (w : Word)
  | staIzx (b : Byte) | staIzy (b : Byte)
  | stxZp (b : Byte) | stxZpy (b : Byte) | stxAbs (w : Word)
  | styZp (b : Byte) | styZpx (b : Byte) | styAbs (w : Word)
  -- Arithmetic and compare (42_arithmetic_compare.md)
  | adcImm (v : Byte) | adcZp (b : Byte) | adcZpx (b : Byte) | adcAbs (w : Word) | adcAbx (w : Word)
  | adcAby (w : Word) | adcIzx (b : Byte) | adcIzy (b : Byte)
  | sbcImm (v : Byte) | sbcZp (b : Byte) | sbcZpx (b : Byte) | sbcAbs (w : Word) | sbcAbx (w : Word)
  | sbcAby (w : Word) | sbcIzx (b : Byte) | sbcIzy (b : Byte)
  | cmpImm (v : Byte) | cmpZp (b : Byte) | cmpZpx (b : Byte) | cmpAbs (w : Word) | cmpAbx (w : Word)
  | cmpAby (w : Word) | cmpIzx (b : Byte) | cmpIzy (b : Byte)
  | cpxImm (v : Byte) | cpxZp (b : Byte) | cpxAbs (w : Word)
  | cpyImm (v : Byte) | cpyZp (b : Byte) | cpyAbs (w : Word)
  -- Logic and bit test (43_logic_bit.md)
  | andImm (v : Byte) | andZp (b : Byte) | andZpx (b : Byte) | andAbs (w : Word) | andAbx (w : Word)
  | andAby (w : Word) | andIzx (b : Byte) | andIzy (b : Byte)
  | oraImm (v : Byte) | oraZp (b : Byte) | oraZpx (b : Byte) | oraAbs (w : Word) | oraAbx (w : Word)
  | oraAby (w : Word) | oraIzx (b : Byte) | oraIzy (b : Byte)
  | eorImm (v : Byte) | eorZp (b : Byte) | eorZpx (b : Byte) | eorAbs (w : Word) | eorAbx (w : Word)
  | eorAby (w : Word) | eorIzx (b : Byte) | eorIzy (b : Byte)
  | bitZp (b : Byte) | bitAbs (w : Word)
  -- Shift and rotate (44_shift_rotate.md)
  | aslAcc | aslZp (b : Byte) | aslZpx (b : Byte) | aslAbs (w : Word) | aslAbx (w : Word)
  | lsrAcc | lsrZp (b : Byte) | lsrZpx (b : Byte) | lsrAbs (w : Word) | lsrAbx (w : Word)
  | rolAcc | rolZp (b : Byte) | rolZpx (b : Byte) | rolAbs (w : Word) | rolAbx (w : Word)
  | rorAcc | rorZp (b : Byte) | rorZpx (b : Byte) | rorAbs (w : Word) | rorAbx (w : Word)
  -- Increment and decrement (45_incdec.md)
  | incZp (b : Byte) | incZpx (b : Byte) | incAbs (w : Word) | incAbx (w : Word)
  | decZp (b : Byte) | decZpx (b : Byte) | decAbs (w : Word) | decAbx (w : Word)
  | inx
  | iny
  | dex
  | dey
  -- Control transfer (46_control_flow.md)
  | bcc (d : Byte)
  | bcs (d : Byte)
  | beq (d : Byte)
  | bne (d : Byte)
  | bmi (d : Byte)
  | bpl (d : Byte)
  | bvc (d : Byte)
  | bvs (d : Byte)
  | jmpAbs (w : Word) | jmpInd (w : Word)
  | jsr (w : Word)
  | rts
  | rti
  -- Flags, transfers, stack, no-op, halt (47_flags_transfer_stack_misc.md)
  | clc
  | sec
  | cld
  | sed
  | cli
  | sei
  | clv
  | tax
  | txa
  | tay
  | tya
  | tsx
  | txs
  | pha
  | pla
  | php
  | plp
  | nop
  | brk
deriving DecidableEq, Repr

/-- The mnemonic of an instruction's table row (30_encoding.md R84). -/
def Instr.mnemonic : Instr → Mnemonic
  | .ldaImm _ | .ldaZp _ | .ldaZpx _ | .ldaAbs _ | .ldaAbx _ | .ldaAby _ | .ldaIzx _ | .ldaIzy _ => .lda
  | .ldxImm _ | .ldxZp _ | .ldxZpy _ | .ldxAbs _ | .ldxAby _ => .ldx
  | .ldyImm _ | .ldyZp _ | .ldyZpx _ | .ldyAbs _ | .ldyAbx _ => .ldy
  | .staZp _ | .staZpx _ | .staAbs _ | .staAbx _ | .staAby _ | .staIzx _ | .staIzy _ => .sta
  | .stxZp _ | .stxZpy _ | .stxAbs _ => .stx
  | .styZp _ | .styZpx _ | .styAbs _ => .sty
  | .adcImm _ | .adcZp _ | .adcZpx _ | .adcAbs _ | .adcAbx _ | .adcAby _ | .adcIzx _ | .adcIzy _ => .adc
  | .sbcImm _ | .sbcZp _ | .sbcZpx _ | .sbcAbs _ | .sbcAbx _ | .sbcAby _ | .sbcIzx _ | .sbcIzy _ => .sbc
  | .cmpImm _ | .cmpZp _ | .cmpZpx _ | .cmpAbs _ | .cmpAbx _ | .cmpAby _ | .cmpIzx _ | .cmpIzy _ => .cmp
  | .cpxImm _ | .cpxZp _ | .cpxAbs _ => .cpx
  | .cpyImm _ | .cpyZp _ | .cpyAbs _ => .cpy
  | .andImm _ | .andZp _ | .andZpx _ | .andAbs _ | .andAbx _ | .andAby _ | .andIzx _ | .andIzy _ => .and
  | .oraImm _ | .oraZp _ | .oraZpx _ | .oraAbs _ | .oraAbx _ | .oraAby _ | .oraIzx _ | .oraIzy _ => .ora
  | .eorImm _ | .eorZp _ | .eorZpx _ | .eorAbs _ | .eorAbx _ | .eorAby _ | .eorIzx _ | .eorIzy _ => .eor
  | .bitZp _ | .bitAbs _ => .bit
  | .aslAcc | .aslZp _ | .aslZpx _ | .aslAbs _ | .aslAbx _ => .asl
  | .lsrAcc | .lsrZp _ | .lsrZpx _ | .lsrAbs _ | .lsrAbx _ => .lsr
  | .rolAcc | .rolZp _ | .rolZpx _ | .rolAbs _ | .rolAbx _ => .rol
  | .rorAcc | .rorZp _ | .rorZpx _ | .rorAbs _ | .rorAbx _ => .ror
  | .incZp _ | .incZpx _ | .incAbs _ | .incAbx _ => .inc
  | .decZp _ | .decZpx _ | .decAbs _ | .decAbx _ => .dec
  | .inx => .inx
  | .iny => .iny
  | .dex => .dex
  | .dey => .dey
  | .bcc _ => .bcc
  | .bcs _ => .bcs
  | .beq _ => .beq
  | .bne _ => .bne
  | .bmi _ => .bmi
  | .bpl _ => .bpl
  | .bvc _ => .bvc
  | .bvs _ => .bvs
  | .jmpAbs _ | .jmpInd _ => .jmp
  | .jsr _ => .jsr
  | .rts => .rts
  | .rti => .rti
  | .clc => .clc
  | .sec => .sec
  | .cld => .cld
  | .sed => .sed
  | .cli => .cli
  | .sei => .sei
  | .clv => .clv
  | .tax => .tax
  | .txa => .txa
  | .tay => .tay
  | .tya => .tya
  | .tsx => .tsx
  | .txs => .txs
  | .pha => .pha
  | .pla => .pla
  | .php => .php
  | .plp => .plp
  | .nop => .nop
  | .brk => .brk

/-- The mode code of an instruction's table row (30_encoding.md R84). -/
def Instr.mode : Instr → Mode
  | .inx | .iny | .dex | .dey | .rts | .rti | .clc | .sec | .cld | .sed | .cli | .sei | .clv | .tax | .txa
  | .tay | .tya | .tsx | .txs | .pha | .pla | .php | .plp | .nop | .brk => .imp
  | .aslAcc | .lsrAcc | .rolAcc | .rorAcc => .acc
  | .ldaImm _ | .ldxImm _ | .ldyImm _ | .adcImm _ | .sbcImm _ | .cmpImm _ | .cpxImm _ | .cpyImm _ | .andImm _
  | .oraImm _ | .eorImm _ => .imm
  | .ldaZp _ | .ldxZp _ | .ldyZp _ | .staZp _ | .stxZp _ | .styZp _ | .adcZp _ | .sbcZp _ | .cmpZp _
  | .cpxZp _ | .cpyZp _ | .andZp _ | .oraZp _ | .eorZp _ | .bitZp _ | .aslZp _ | .lsrZp _ | .rolZp _
  | .rorZp _ | .incZp _ | .decZp _ => .zp
  | .ldaZpx _ | .ldyZpx _ | .staZpx _ | .styZpx _ | .adcZpx _ | .sbcZpx _ | .cmpZpx _ | .andZpx _ | .oraZpx _
  | .eorZpx _ | .aslZpx _ | .lsrZpx _ | .rolZpx _ | .rorZpx _ | .incZpx _ | .decZpx _ => .zpx
  | .ldxZpy _ | .stxZpy _ => .zpy
  | .ldaAbs _ | .ldxAbs _ | .ldyAbs _ | .staAbs _ | .stxAbs _ | .styAbs _ | .adcAbs _ | .sbcAbs _ | .cmpAbs _
  | .cpxAbs _ | .cpyAbs _ | .andAbs _ | .oraAbs _ | .eorAbs _ | .bitAbs _ | .aslAbs _ | .lsrAbs _ | .rolAbs _
  | .rorAbs _ | .incAbs _ | .decAbs _ | .jmpAbs _ | .jsr _ => .abs
  | .ldaAbx _ | .ldyAbx _ | .staAbx _ | .adcAbx _ | .sbcAbx _ | .cmpAbx _ | .andAbx _ | .oraAbx _ | .eorAbx _
  | .aslAbx _ | .lsrAbx _ | .rolAbx _ | .rorAbx _ | .incAbx _ | .decAbx _ => .abx
  | .ldaAby _ | .ldxAby _ | .staAby _ | .adcAby _ | .sbcAby _ | .cmpAby _ | .andAby _ | .oraAby _ | .eorAby _ => .aby
  | .ldaIzx _ | .staIzx _ | .adcIzx _ | .sbcIzx _ | .cmpIzx _ | .andIzx _ | .oraIzx _ | .eorIzx _ => .izx
  | .ldaIzy _ | .staIzy _ | .adcIzy _ | .sbcIzy _ | .cmpIzy _ | .andIzy _ | .oraIzy _ | .eorIzy _ => .izy
  | .bcc _ | .bcs _ | .beq _ | .bne _ | .bmi _ | .bpl _ | .bvc _ | .bvs _ => .rel
  | .jmpInd _ => .ind

/-- The length in bytes of an instruction (30_encoding.md R84, R86). -/
def Instr.length (i : Instr) : Nat := i.mode.length

/-- The addressing form of an instruction whose mode is one of the nine the resolver takes; none for IMP, ACC,
REL and IND (40_engine_and_addressing.md R104, R119). -/
def Instr.addressing : Instr → Option Addressing
  | .ldaImm v => some (.imm v)
  | .ldaZp b => some (.zp b)
  | .ldaZpx b => some (.zpx b)
  | .ldaAbs w => some (.abs w)
  | .ldaAbx w => some (.abx w)
  | .ldaAby w => some (.aby w)
  | .ldaIzx b => some (.izx b)
  | .ldaIzy b => some (.izy b)
  | .ldxImm v => some (.imm v)
  | .ldxZp b => some (.zp b)
  | .ldxZpy b => some (.zpy b)
  | .ldxAbs w => some (.abs w)
  | .ldxAby w => some (.aby w)
  | .ldyImm v => some (.imm v)
  | .ldyZp b => some (.zp b)
  | .ldyZpx b => some (.zpx b)
  | .ldyAbs w => some (.abs w)
  | .ldyAbx w => some (.abx w)
  | .staZp b => some (.zp b)
  | .staZpx b => some (.zpx b)
  | .staAbs w => some (.abs w)
  | .staAbx w => some (.abx w)
  | .staAby w => some (.aby w)
  | .staIzx b => some (.izx b)
  | .staIzy b => some (.izy b)
  | .stxZp b => some (.zp b)
  | .stxZpy b => some (.zpy b)
  | .stxAbs w => some (.abs w)
  | .styZp b => some (.zp b)
  | .styZpx b => some (.zpx b)
  | .styAbs w => some (.abs w)
  | .adcImm v => some (.imm v)
  | .adcZp b => some (.zp b)
  | .adcZpx b => some (.zpx b)
  | .adcAbs w => some (.abs w)
  | .adcAbx w => some (.abx w)
  | .adcAby w => some (.aby w)
  | .adcIzx b => some (.izx b)
  | .adcIzy b => some (.izy b)
  | .sbcImm v => some (.imm v)
  | .sbcZp b => some (.zp b)
  | .sbcZpx b => some (.zpx b)
  | .sbcAbs w => some (.abs w)
  | .sbcAbx w => some (.abx w)
  | .sbcAby w => some (.aby w)
  | .sbcIzx b => some (.izx b)
  | .sbcIzy b => some (.izy b)
  | .cmpImm v => some (.imm v)
  | .cmpZp b => some (.zp b)
  | .cmpZpx b => some (.zpx b)
  | .cmpAbs w => some (.abs w)
  | .cmpAbx w => some (.abx w)
  | .cmpAby w => some (.aby w)
  | .cmpIzx b => some (.izx b)
  | .cmpIzy b => some (.izy b)
  | .cpxImm v => some (.imm v)
  | .cpxZp b => some (.zp b)
  | .cpxAbs w => some (.abs w)
  | .cpyImm v => some (.imm v)
  | .cpyZp b => some (.zp b)
  | .cpyAbs w => some (.abs w)
  | .andImm v => some (.imm v)
  | .andZp b => some (.zp b)
  | .andZpx b => some (.zpx b)
  | .andAbs w => some (.abs w)
  | .andAbx w => some (.abx w)
  | .andAby w => some (.aby w)
  | .andIzx b => some (.izx b)
  | .andIzy b => some (.izy b)
  | .oraImm v => some (.imm v)
  | .oraZp b => some (.zp b)
  | .oraZpx b => some (.zpx b)
  | .oraAbs w => some (.abs w)
  | .oraAbx w => some (.abx w)
  | .oraAby w => some (.aby w)
  | .oraIzx b => some (.izx b)
  | .oraIzy b => some (.izy b)
  | .eorImm v => some (.imm v)
  | .eorZp b => some (.zp b)
  | .eorZpx b => some (.zpx b)
  | .eorAbs w => some (.abs w)
  | .eorAbx w => some (.abx w)
  | .eorAby w => some (.aby w)
  | .eorIzx b => some (.izx b)
  | .eorIzy b => some (.izy b)
  | .bitZp b => some (.zp b)
  | .bitAbs w => some (.abs w)
  | .aslZp b => some (.zp b)
  | .aslZpx b => some (.zpx b)
  | .aslAbs w => some (.abs w)
  | .aslAbx w => some (.abx w)
  | .lsrZp b => some (.zp b)
  | .lsrZpx b => some (.zpx b)
  | .lsrAbs w => some (.abs w)
  | .lsrAbx w => some (.abx w)
  | .rolZp b => some (.zp b)
  | .rolZpx b => some (.zpx b)
  | .rolAbs w => some (.abs w)
  | .rolAbx w => some (.abx w)
  | .rorZp b => some (.zp b)
  | .rorZpx b => some (.zpx b)
  | .rorAbs w => some (.abs w)
  | .rorAbx w => some (.abx w)
  | .incZp b => some (.zp b)
  | .incZpx b => some (.zpx b)
  | .incAbs w => some (.abs w)
  | .incAbx w => some (.abx w)
  | .decZp b => some (.zp b)
  | .decZpx b => some (.zpx b)
  | .decAbs w => some (.abs w)
  | .decAbx w => some (.abx w)
  | .jmpAbs w => some (.abs w)
  | .jsr w => some (.abs w)
  | .aslAcc | .lsrAcc | .rolAcc | .rorAcc | .inx | .iny | .dex | .dey | .bcc _ | .bcs _ | .beq _ | .bne _
  | .bmi _ | .bpl _ | .bvc _ | .bvs _ | .jmpInd _ | .rts | .rti | .clc | .sec | .cld | .sed | .cli | .sei
  | .clv | .tax | .txa | .tay | .tya | .tsx | .txs | .pha | .pla | .php | .plp | .nop | .brk => none

end Sys2Proof
end

