-- ==== Sys2Proof/Decode.lean ====
section
/-! DEFINITION. The opcode table and the decoder (30_encoding.md R80 to R86), and after it the encoder. The table is
a constant (rule R90); decoding is a lookup of all eight bits of the first byte (rule R81) and reads nothing
else; a byte with no row is rejected by name (rule R85). -/

namespace Sys2Proof

/-- What follows the opcode byte, by format (30_encoding.md R81): F1 nothing, F2 one byte, F3 a little-endian
word; with the instruction the operand makes. -/
inductive OpForm where
  | f1 (i : Instr)
  | f2 (make : Byte → Instr)
  | f3 (make : Word → Instr)

/-- How many operand bytes a format has (30_encoding.md R81). -/
def OpForm.operandBytes : OpForm → Nat
  | .f1 _ => 0 | .f2 _ => 1 | .f3 _ => 2

/-- The instruction of a format from its operand bytes `b1` and `b2`; a format ignores the bytes it does not have
(30_encoding.md R83). -/
def OpForm.build : OpForm → Byte → Byte → Instr
  | .f1 i, _, _ => i
  | .f2 make, b1, _ => make b1
  | .f3 make, b1, b2 => make (mk16 b2 b1)

/-- Load and store (41_load_store.md): its rows of the opcode table (30_encoding.md R84). -/
def rowsLoadStore : List (Byte × OpForm) :=
  [(0xA9#8, .f2 .ldaImm), (0xA5#8, .f2 .ldaZp), (0xB5#8, .f2 .ldaZpx), (0xAD#8, .f3 .ldaAbs),
    (0xBD#8, .f3 .ldaAbx), (0xB9#8, .f3 .ldaAby), (0xA1#8, .f2 .ldaIzx), (0xB1#8, .f2 .ldaIzy),
    (0xA2#8, .f2 .ldxImm), (0xA6#8, .f2 .ldxZp), (0xB6#8, .f2 .ldxZpy), (0xAE#8, .f3 .ldxAbs),
    (0xBE#8, .f3 .ldxAby),
    (0xA0#8, .f2 .ldyImm), (0xA4#8, .f2 .ldyZp), (0xB4#8, .f2 .ldyZpx), (0xAC#8, .f3 .ldyAbs),
    (0xBC#8, .f3 .ldyAbx),
    (0x85#8, .f2 .staZp), (0x95#8, .f2 .staZpx), (0x8D#8, .f3 .staAbs), (0x9D#8, .f3 .staAbx),
    (0x99#8, .f3 .staAby), (0x81#8, .f2 .staIzx), (0x91#8, .f2 .staIzy),
    (0x86#8, .f2 .stxZp), (0x96#8, .f2 .stxZpy), (0x8E#8, .f3 .stxAbs),
    (0x84#8, .f2 .styZp), (0x94#8, .f2 .styZpx), (0x8C#8, .f3 .styAbs)]

/-- Arithmetic and compare (42_arithmetic_compare.md): its rows of the opcode table (30_encoding.md R84). -/
def rowsArithmetic : List (Byte × OpForm) :=
  [(0x69#8, .f2 .adcImm), (0x65#8, .f2 .adcZp), (0x75#8, .f2 .adcZpx), (0x6D#8, .f3 .adcAbs),
    (0x7D#8, .f3 .adcAbx), (0x79#8, .f3 .adcAby), (0x61#8, .f2 .adcIzx), (0x71#8, .f2 .adcIzy),
    (0xE9#8, .f2 .sbcImm), (0xE5#8, .f2 .sbcZp), (0xF5#8, .f2 .sbcZpx), (0xED#8, .f3 .sbcAbs),
    (0xFD#8, .f3 .sbcAbx), (0xF9#8, .f3 .sbcAby), (0xE1#8, .f2 .sbcIzx), (0xF1#8, .f2 .sbcIzy),
    (0xC9#8, .f2 .cmpImm), (0xC5#8, .f2 .cmpZp), (0xD5#8, .f2 .cmpZpx), (0xCD#8, .f3 .cmpAbs),
    (0xDD#8, .f3 .cmpAbx), (0xD9#8, .f3 .cmpAby), (0xC1#8, .f2 .cmpIzx), (0xD1#8, .f2 .cmpIzy),
    (0xE0#8, .f2 .cpxImm), (0xE4#8, .f2 .cpxZp), (0xEC#8, .f3 .cpxAbs),
    (0xC0#8, .f2 .cpyImm), (0xC4#8, .f2 .cpyZp), (0xCC#8, .f3 .cpyAbs)]

/-- Logic and bit test (43_logic_bit.md): its rows of the opcode table (30_encoding.md R84). -/
def rowsLogic : List (Byte × OpForm) :=
  [(0x29#8, .f2 .andImm), (0x25#8, .f2 .andZp), (0x35#8, .f2 .andZpx), (0x2D#8, .f3 .andAbs),
    (0x3D#8, .f3 .andAbx), (0x39#8, .f3 .andAby), (0x21#8, .f2 .andIzx), (0x31#8, .f2 .andIzy),
    (0x09#8, .f2 .oraImm), (0x05#8, .f2 .oraZp), (0x15#8, .f2 .oraZpx), (0x0D#8, .f3 .oraAbs),
    (0x1D#8, .f3 .oraAbx), (0x19#8, .f3 .oraAby), (0x01#8, .f2 .oraIzx), (0x11#8, .f2 .oraIzy),
    (0x49#8, .f2 .eorImm), (0x45#8, .f2 .eorZp), (0x55#8, .f2 .eorZpx), (0x4D#8, .f3 .eorAbs),
    (0x5D#8, .f3 .eorAbx), (0x59#8, .f3 .eorAby), (0x41#8, .f2 .eorIzx), (0x51#8, .f2 .eorIzy),
    (0x24#8, .f2 .bitZp), (0x2C#8, .f3 .bitAbs)]

/-- Shift and rotate (44_shift_rotate.md): its rows of the opcode table (30_encoding.md R84). -/
def rowsShift : List (Byte × OpForm) :=
  [(0x0A#8, .f1 .aslAcc), (0x06#8, .f2 .aslZp), (0x16#8, .f2 .aslZpx), (0x0E#8, .f3 .aslAbs),
    (0x1E#8, .f3 .aslAbx),
    (0x4A#8, .f1 .lsrAcc), (0x46#8, .f2 .lsrZp), (0x56#8, .f2 .lsrZpx), (0x4E#8, .f3 .lsrAbs),
    (0x5E#8, .f3 .lsrAbx),
    (0x2A#8, .f1 .rolAcc), (0x26#8, .f2 .rolZp), (0x36#8, .f2 .rolZpx), (0x2E#8, .f3 .rolAbs),
    (0x3E#8, .f3 .rolAbx),
    (0x6A#8, .f1 .rorAcc), (0x66#8, .f2 .rorZp), (0x76#8, .f2 .rorZpx), (0x6E#8, .f3 .rorAbs),
    (0x7E#8, .f3 .rorAbx)]

/-- Increment and decrement (45_incdec.md): its rows of the opcode table (30_encoding.md R84). -/
def rowsIncDec : List (Byte × OpForm) :=
  [(0xE6#8, .f2 .incZp), (0xF6#8, .f2 .incZpx), (0xEE#8, .f3 .incAbs), (0xFE#8, .f3 .incAbx),
    (0xC6#8, .f2 .decZp), (0xD6#8, .f2 .decZpx), (0xCE#8, .f3 .decAbs), (0xDE#8, .f3 .decAbx),
    (0xE8#8, .f1 .inx),
    (0xC8#8, .f1 .iny),
    (0xCA#8, .f1 .dex),
    (0x88#8, .f1 .dey)]

/-- Control transfer (46_control_flow.md): its rows of the opcode table (30_encoding.md R84). -/
def rowsControl : List (Byte × OpForm) :=
  [(0x90#8, .f2 .bcc),
    (0xB0#8, .f2 .bcs),
    (0xF0#8, .f2 .beq),
    (0xD0#8, .f2 .bne),
    (0x30#8, .f2 .bmi),
    (0x10#8, .f2 .bpl),
    (0x50#8, .f2 .bvc),
    (0x70#8, .f2 .bvs),
    (0x4C#8, .f3 .jmpAbs), (0x6C#8, .f3 .jmpInd),
    (0x20#8, .f3 .jsr),
    (0x60#8, .f1 .rts),
    (0x40#8, .f1 .rti)]

/-- Flags, transfers, stack, no-op, halt (47_flags_transfer_stack_misc.md): its rows of the opcode table (30_encoding.md R84). -/
def rowsMisc : List (Byte × OpForm) :=
  [(0x18#8, .f1 .clc),
    (0x38#8, .f1 .sec),
    (0xD8#8, .f1 .cld),
    (0xF8#8, .f1 .sed),
    (0x58#8, .f1 .cli),
    (0x78#8, .f1 .sei),
    (0xB8#8, .f1 .clv),
    (0xAA#8, .f1 .tax),
    (0x8A#8, .f1 .txa),
    (0xA8#8, .f1 .tay),
    (0x98#8, .f1 .tya),
    (0xBA#8, .f1 .tsx),
    (0x9A#8, .f1 .txs),
    (0x48#8, .f1 .pha),
    (0x68#8, .f1 .pla),
    (0x08#8, .f1 .php),
    (0x28#8, .f1 .plp),
    (0xEA#8, .f1 .nop),
    (0x00#8, .f1 .brk)]

/-- The opcode table: 151 rows (30_encoding.md R84). -/
def opcodeTable : List (Byte × OpForm) :=
  rowsLoadStore ++ rowsArithmetic ++ rowsLogic ++ rowsShift ++ rowsIncDec ++ rowsControl ++ rowsMisc

/-- The lookup of an opcode byte in the table; none when the byte is illegal (30_encoding.md R85;
40_engine_and_addressing.md R103). -/
def lookupOpcode (op : Byte) : Option OpForm :=
  (opcodeTable.find? (fun row => row.1 == op)).map Prod.snd

/-- What the decoder answers: the instruction and the bytes after it, or the reason there is none. -/
inductive Decoded where
  /-- The instruction at the front of the bytes, and the bytes after it. -/
  | ok (i : Instr) (rest : List Byte)
  /-- The first byte has no table entry: a decode failure (30_encoding.md R85). -/
  | illegalOpcode (op : Byte)
  /-- The bytes end before the instruction does; no fetch of the machine gives this, it reads all it needs. -/
  | truncated
deriving DecidableEq, Repr

/-- The decoder, total on any bytes (30_encoding.md R80, R81, R83, R85). -/
def decode : List Byte → Decoded
  | [] => .truncated
  | op :: rest =>
    match lookupOpcode op with
    | none => .illegalOpcode op
    | some f =>
      if rest.length < f.operandBytes then .truncated
      else .ok (f.build (rest.getD 0 0) (rest.getD 1 0)) (rest.drop f.operandBytes)

/-- The encoder: the bytes of an instruction at increasing addresses, opcode first, a two-byte operand low byte
first (30_encoding.md R81, R83, R84). -/
def encode : Instr → List Byte
  | .ldaImm v => [0xA9, v]
  | .ldaZp b => [0xA5, b]
  | .ldaZpx b => [0xB5, b]
  | .ldaAbs w => [0xAD, lo8 w, hi8 w]
  | .ldaAbx w => [0xBD, lo8 w, hi8 w]
  | .ldaAby w => [0xB9, lo8 w, hi8 w]
  | .ldaIzx b => [0xA1, b]
  | .ldaIzy b => [0xB1, b]
  | .ldxImm v => [0xA2, v]
  | .ldxZp b => [0xA6, b]
  | .ldxZpy b => [0xB6, b]
  | .ldxAbs w => [0xAE, lo8 w, hi8 w]
  | .ldxAby w => [0xBE, lo8 w, hi8 w]
  | .ldyImm v => [0xA0, v]
  | .ldyZp b => [0xA4, b]
  | .ldyZpx b => [0xB4, b]
  | .ldyAbs w => [0xAC, lo8 w, hi8 w]
  | .ldyAbx w => [0xBC, lo8 w, hi8 w]
  | .staZp b => [0x85, b]
  | .staZpx b => [0x95, b]
  | .staAbs w => [0x8D, lo8 w, hi8 w]
  | .staAbx w => [0x9D, lo8 w, hi8 w]
  | .staAby w => [0x99, lo8 w, hi8 w]
  | .staIzx b => [0x81, b]
  | .staIzy b => [0x91, b]
  | .stxZp b => [0x86, b]
  | .stxZpy b => [0x96, b]
  | .stxAbs w => [0x8E, lo8 w, hi8 w]
  | .styZp b => [0x84, b]
  | .styZpx b => [0x94, b]
  | .styAbs w => [0x8C, lo8 w, hi8 w]
  | .adcImm v => [0x69, v]
  | .adcZp b => [0x65, b]
  | .adcZpx b => [0x75, b]
  | .adcAbs w => [0x6D, lo8 w, hi8 w]
  | .adcAbx w => [0x7D, lo8 w, hi8 w]
  | .adcAby w => [0x79, lo8 w, hi8 w]
  | .adcIzx b => [0x61, b]
  | .adcIzy b => [0x71, b]
  | .sbcImm v => [0xE9, v]
  | .sbcZp b => [0xE5, b]
  | .sbcZpx b => [0xF5, b]
  | .sbcAbs w => [0xED, lo8 w, hi8 w]
  | .sbcAbx w => [0xFD, lo8 w, hi8 w]
  | .sbcAby w => [0xF9, lo8 w, hi8 w]
  | .sbcIzx b => [0xE1, b]
  | .sbcIzy b => [0xF1, b]
  | .cmpImm v => [0xC9, v]
  | .cmpZp b => [0xC5, b]
  | .cmpZpx b => [0xD5, b]
  | .cmpAbs w => [0xCD, lo8 w, hi8 w]
  | .cmpAbx w => [0xDD, lo8 w, hi8 w]
  | .cmpAby w => [0xD9, lo8 w, hi8 w]
  | .cmpIzx b => [0xC1, b]
  | .cmpIzy b => [0xD1, b]
  | .cpxImm v => [0xE0, v]
  | .cpxZp b => [0xE4, b]
  | .cpxAbs w => [0xEC, lo8 w, hi8 w]
  | .cpyImm v => [0xC0, v]
  | .cpyZp b => [0xC4, b]
  | .cpyAbs w => [0xCC, lo8 w, hi8 w]
  | .andImm v => [0x29, v]
  | .andZp b => [0x25, b]
  | .andZpx b => [0x35, b]
  | .andAbs w => [0x2D, lo8 w, hi8 w]
  | .andAbx w => [0x3D, lo8 w, hi8 w]
  | .andAby w => [0x39, lo8 w, hi8 w]
  | .andIzx b => [0x21, b]
  | .andIzy b => [0x31, b]
  | .oraImm v => [0x09, v]
  | .oraZp b => [0x05, b]
  | .oraZpx b => [0x15, b]
  | .oraAbs w => [0x0D, lo8 w, hi8 w]
  | .oraAbx w => [0x1D, lo8 w, hi8 w]
  | .oraAby w => [0x19, lo8 w, hi8 w]
  | .oraIzx b => [0x01, b]
  | .oraIzy b => [0x11, b]
  | .eorImm v => [0x49, v]
  | .eorZp b => [0x45, b]
  | .eorZpx b => [0x55, b]
  | .eorAbs w => [0x4D, lo8 w, hi8 w]
  | .eorAbx w => [0x5D, lo8 w, hi8 w]
  | .eorAby w => [0x59, lo8 w, hi8 w]
  | .eorIzx b => [0x41, b]
  | .eorIzy b => [0x51, b]
  | .bitZp b => [0x24, b]
  | .bitAbs w => [0x2C, lo8 w, hi8 w]
  | .aslAcc => [0x0A]
  | .aslZp b => [0x06, b]
  | .aslZpx b => [0x16, b]
  | .aslAbs w => [0x0E, lo8 w, hi8 w]
  | .aslAbx w => [0x1E, lo8 w, hi8 w]
  | .lsrAcc => [0x4A]
  | .lsrZp b => [0x46, b]
  | .lsrZpx b => [0x56, b]
  | .lsrAbs w => [0x4E, lo8 w, hi8 w]
  | .lsrAbx w => [0x5E, lo8 w, hi8 w]
  | .rolAcc => [0x2A]
  | .rolZp b => [0x26, b]
  | .rolZpx b => [0x36, b]
  | .rolAbs w => [0x2E, lo8 w, hi8 w]
  | .rolAbx w => [0x3E, lo8 w, hi8 w]
  | .rorAcc => [0x6A]
  | .rorZp b => [0x66, b]
  | .rorZpx b => [0x76, b]
  | .rorAbs w => [0x6E, lo8 w, hi8 w]
  | .rorAbx w => [0x7E, lo8 w, hi8 w]
  | .incZp b => [0xE6, b]
  | .incZpx b => [0xF6, b]
  | .incAbs w => [0xEE, lo8 w, hi8 w]
  | .incAbx w => [0xFE, lo8 w, hi8 w]
  | .decZp b => [0xC6, b]
  | .decZpx b => [0xD6, b]
  | .decAbs w => [0xCE, lo8 w, hi8 w]
  | .decAbx w => [0xDE, lo8 w, hi8 w]
  | .inx => [0xE8]
  | .iny => [0xC8]
  | .dex => [0xCA]
  | .dey => [0x88]
  | .bcc d => [0x90, d]
  | .bcs d => [0xB0, d]
  | .beq d => [0xF0, d]
  | .bne d => [0xD0, d]
  | .bmi d => [0x30, d]
  | .bpl d => [0x10, d]
  | .bvc d => [0x50, d]
  | .bvs d => [0x70, d]
  | .jmpAbs w => [0x4C, lo8 w, hi8 w]
  | .jmpInd w => [0x6C, lo8 w, hi8 w]
  | .jsr w => [0x20, lo8 w, hi8 w]
  | .rts => [0x60]
  | .rti => [0x40]
  | .clc => [0x18]
  | .sec => [0x38]
  | .cld => [0xD8]
  | .sed => [0xF8]
  | .cli => [0x58]
  | .sei => [0x78]
  | .clv => [0xB8]
  | .tax => [0xAA]
  | .txa => [0x8A]
  | .tay => [0xA8]
  | .tya => [0x98]
  | .tsx => [0xBA]
  | .txs => [0x9A]
  | .pha => [0x48]
  | .pla => [0x68]
  | .php => [0x08]
  | .plp => [0x28]
  | .nop => [0xEA]
  | .brk => [0x00]

/-- Byte `k` of an instruction whose bits are `w`, bit 0 the least significant bit of the first byte; every bit from
`nbits` up is 0. -/
def tableByte (nbits w k : Nat) : Byte := BitVec.ofNat 8 (w % 2 ^ nbits / 256 ^ k)

/-- The three bytes of such an instruction, first byte first. -/
def tableBytes (nbits w : Nat) : List Byte := [tableByte nbits w 0, tableByte nbits w 1, tableByte nbits w 2]

/-- The instruction the decoder reads from an instruction whose bits are numbered as spec/opcode_table.json numbers
them; none where the decoder refuses. -/
def decodeTableWord (nbits w : Nat) : Option Instr :=
  match decode (tableBytes nbits w) with
  | .ok i _ => some i
  | .illegalOpcode _ => none
  | .truncated => none

end Sys2Proof
end

