-- ==== Sys2Proof/Machine/Flags.lean ====
section
/-! DEFINITION. The status register's bits, and every value and flag computation of the instructions
(10_state.md R26 to R35; 42_arithmetic_compare.md; 43_logic_bit.md; 44_shift_rotate.md R170). -/

namespace Sys2Proof.Machine

/-- The bits of `P` by name (10_state.md R26); `brk` and `unused` are bits 4 and 5, storage only (R31). -/
inductive Flag where
  | c | z | i | d | brk | unused | v | n
deriving DecidableEq, Repr

/-- The bit number of a flag (10_state.md R26). -/
def Flag.bit : Flag → Nat
  | .c => 0 | .z => 1 | .i => 2 | .d => 3 | .brk => 4 | .unused => 5 | .v => 6 | .n => 7

/-- One flag of a status byte. -/
def getFlag (f : Flag) (p : Byte) : Bool := p.getLsbD f.bit

/-- A status byte with one flag written and every other bit as it was. -/
def putFlag (f : Flag) (b : Bool) (p : Byte) : Byte :=
  if b then p ||| (1#8 <<< f.bit) else p &&& ~~~ (1#8 <<< f.bit)

/-- `SetZN(v)` (10_state.md R35): Z is `v = 0`, N is bit 7 of `v`. -/
def setZN (v : Byte) (p : Byte) : Byte := putFlag .n (v.getLsbD 7) (putFlag .z (v == 0) p)

/-- What an addition with carry gives: the truncated sum, the carry out and the overflow. -/
structure Sum8 where
  value : Byte
  carry : Bool
  overflow : Bool
deriving DecidableEq, Repr

/-- The widened sum of two bytes and a carry (42_arithmetic_compare.md R151): carry when it exceeds 0xFF, overflow when
the result's sign differs from both operands'. -/
def addWithCarry (a m : Byte) (c : Bool) : Sum8 :=
  let sum := a.toNat + m.toNat + c.toNat
  let r := BitVec.ofNat 8 sum
  { value := r
    carry := decide (sum > 0xFF)
    overflow := ((r ^^^ m) &&& (r ^^^ a)).getLsbD 7 }

/-- The flags of a compare (42_arithmetic_compare.md R153): C is `reg >= m` unsigned, Z is `reg = m`, N is bit 7 of the
truncated difference. -/
def compareFlags (reg m : Byte) (p : Byte) : Byte :=
  putFlag .n ((reg - m).getLsbD 7) (putFlag .z (reg == m) (putFlag .c (decide (m.toNat ≤ reg.toNat)) p))

/-- The flags of BIT (43_logic_bit.md R163). -/
def bitFlags (a m : Byte) (p : Byte) : Byte :=
  putFlag .n (m.getLsbD 7) (putFlag .v (m.getLsbD 6) (putFlag .z ((a &&& m) == 0) p))

/-- `asl(v)` (44_shift_rotate.md R170), with the new carry. The old carry is not used. -/
def shiftAsl (v : Byte) (_c : Bool) : Byte × Bool := (v <<< 1, v.getLsbD 7)

/-- `lsr(v)` (44_shift_rotate.md R170), with the new carry. The old carry is not used. -/
def shiftLsr (v : Byte) (_c : Bool) : Byte × Bool := (v >>> 1, v.getLsbD 0)

/-- `rol(v, c)` (44_shift_rotate.md R170): the old carry enters at bit 0. -/
def shiftRol (v : Byte) (c : Bool) : Byte × Bool := ((v <<< 1) ||| (if c then 0x01#8 else 0x00#8), v.getLsbD 7)

/-- `ror(v, c)` (44_shift_rotate.md R170): the old carry enters at bit 7. -/
def shiftRor (v : Byte) (c : Bool) : Byte × Bool := ((v >>> 1) ||| (if c then 0x80#8 else 0x00#8), v.getLsbD 0)

/-- The flags after a shift or rotate from its result and new carry (44_shift_rotate.md R170). -/
def shiftFlags (r : Byte × Bool) (p : Byte) : Byte := setZN r.1 (putFlag .c r.2 p)

end Sys2Proof.Machine
end

