-- ==== Sys2Proof/Config.lean ====
section
/-! DEFINITION. The parameters with a fixed value (00_scope.md R5). The two OPEN parameters are arguments of the
model: `LOAD_BASE` of `load` (Machine/HostOps.lean) and `Hook` of `stepWith` (Machine/Engine.lean). The spec leaves
no result open (70_reset_and_hazards.md R283), so there is no free value here. -/

namespace Sys2Proof.Config

/-- `STACK_PAGE`: stack bytes are at 0x0100 to 0x01FF (00_scope.md R5; 10_state.md R24). -/
def stackPage : Byte := 0x01

/-- `RESET_VECTOR`: the address of the vector's low byte (00_scope.md R5). -/
def resetVector : Word := 0xFFFC

/-- `SP_RESET`: the stack pointer after reset (00_scope.md R5). -/
def spReset : Byte := 0xFD

/-- What a byte of memory that nothing has written reads as: memory is constructed zeroed (10_state.md R39). -/
def unwritten : Byte := 0x00

/-- The number of byte locations (00_scope.md R5). -/
def addressSpace : Nat := 65536

end Sys2Proof.Config
end

