-- ==== Sys2Proof/Machine/State.lean ====
section
/-! DEFINITION. The state of the machine (10_state.md R20), why a step can stop, and the state right after reset. -/

namespace Sys2Proof.Machine

/-- Memory (10_state.md R36): the bytes that differ from what an unwritten byte reads as, in the canonical form
`Memory.wf`. Its operations are in Ops.lean. -/
abbrev Memory := List Host.Cell

/-- The canonical form from an address on: addresses strictly rise, stay inside the address space, and no entry holds
what an unlisted address reads as. -/
def Memory.wfFrom : Nat → Memory → Bool
  | _, [] => true
  | lo, (k, v) :: rest =>
    decide (lo ≤ k) && decide (k < Config.addressSpace) && (v != Config.unwritten) && Memory.wfFrom (k + 1) rest

/-- The canonical form of memory: equal memories are equal lists. -/
def Memory.wf (m : Memory) : Bool := Memory.wfFrom 0 m

/-- The run status (10_state.md R38). -/
inductive RunStatus where
  /-- Entered by reset. -/
  | running
  /-- Terminal: a BRK was executed (47_flags_transfer_stack_misc.md R232). -/
  | halted
  /-- Terminal: the opcode byte `op`, fetched at `addr`, has no table entry (60_exceptions.md R241). -/
  | faulted (op : Byte) (addr : Word)
  /-- Terminal: the hook reported a failure (60_exceptions.md R242). -/
  | aborted
deriving DecidableEq, Repr

/-- The hook's verdict (60_exceptions.md R252). -/
inductive Verdict where
  /-- The spec's `continue`. -/
  | goOn
  /-- The spec's `abort`. -/
  | abort
deriving DecidableEq, Repr

/-- One write a hook makes: any register but the run status, or any byte of memory (60_exceptions.md R253). -/
inductive HookWrite where
  | a (v : Byte) | x (v : Byte) | y (v : Byte) | sp (v : Byte) | p (v : Byte) | pc (v : Word)
  | mem (addr : Word) (v : Byte)
deriving DecidableEq, Repr

/-- One answer of the hook as plain data: the writes it makes, in order, and its verdict. -/
structure HookCall where
  writes : List HookWrite
  verdict : Verdict
deriving DecidableEq, Repr

/-- The part of the state the hook reads and writes: (A, X, Y, SP, P, PC, M) (60_exceptions.md R252). -/
structure HookView where
  a : Byte
  x : Byte
  y : Byte
  sp : Byte
  p : Byte
  pc : Word
  mem : Memory
deriving DecidableEq, Repr

/-- A hook: a function of the state it sees, with a verdict (60_exceptions.md R252). It is an argument of the step, not
state. -/
abbrev Hook := HookView → HookView × Verdict

/-- The architectural state (10_state.md R20), and one field of the model's own, `hookCalls`. -/
structure State where
  /-- The accumulator (R21). -/
  a : Byte
  /-- Index register X (R22). -/
  x : Byte
  /-- Index register Y (R23). -/
  y : Byte
  /-- The stack pointer, an offset into the stack page (R24). -/
  sp : Byte
  /-- The status register (R26): bit 0 C, 1 Z, 2 I, 3 D, 4 and 5 storage only, 6 V, 7 N. -/
  p : Byte
  /-- The program counter (R25). -/
  pc : Word
  /-- Memory (R36). -/
  mem : Memory
  /-- The run status (R38). -/
  run : RunStatus
  /-- The MODEL's own field (log entry 3): the hook's next answers, one a step; empty is the default hook
  (60_exceptions.md R254). -/
  hookCalls : List HookCall
deriving DecidableEq, Repr

/-- Why there is no step from a state: its run status is terminal, and only a reset leaves it (10_state.md R38;
40_engine_and_addressing.md R107). Each is raised by the step alone, never by an instruction, and is safe: the machine
does nothing there. The terminal states themselves are ordinary next states. -/
inductive Fault where
  /-- A step asked of a `halted` machine. Safe: the machine takes no step there. -/
  | afterHalt
  /-- A step asked of a machine that stopped at the illegal byte `op` at `addr`. Safe: the machine takes no step there. -/
  | afterDecodeFault (op : Byte) (addr : Word)
  /-- A step asked of a machine that the hook stopped. Safe: the machine takes no step there. -/
  | afterHookAbort
deriving DecidableEq, Repr

/-- What the model refuses. -/
inductive Refusal where
  /-- An instruction with no meaning: raised by no arm of `exec`, since every instruction has one. Safe. -/
  | notModelled (mnemonic : String)
  /-- Raised by the host operation `load` for an image that does not fit its window (70_reset_and_hazards.md R273);
  no step raises it. Safe. -/
  | imageDoesNotFit
deriving DecidableEq, Repr

/-- The machine right after the first reset that follows power-on, with nothing loaded (10_state.md R39, R40): `PC` is
the vector word of zeroed memory, `Y` is as power-on left it. -/
def State.reset : State where
  a := 0x00
  x := 0x00
  y := 0x00
  sp := 0xFD
  p := 0x00
  pc := 0x0000
  mem := []
  run := .running
  hookCalls := []

end Sys2Proof.Machine
end

