-- ==== Sys2Proof/Machine/Ops.lean ====
section
/-! DEFINITION. The named operations over memory and registers: the access primitives (20_memory.md R50 to R52), the
stack (R58 to R61), the register writes with their flags (10_state.md R35), the advance of the program counter
(40_engine_and_addressing.md R106), stopping (60_exceptions.md R240 to R242) and the return from interrupt
(46_control_flow.md R203). -/

namespace Sys2Proof.Machine

/-- The byte at an address; an unlisted address reads as an unwritten byte does. -/
def Memory.read : Memory → Nat → Byte
  | [], _ => Config.unwritten
  | (k, v) :: rest, a => if k = a then v else Memory.read rest a

/-- Memory with no entry for an address. -/
def Memory.erase : Memory → Nat → Memory
  | [], _ => []
  | (k, v) :: rest, a => if k = a then Memory.erase rest a else (k, v) :: Memory.erase rest a

/-- An entry put at its place in the order of the addresses. -/
def Memory.insert : Memory → Nat → Byte → Memory
  | [], a, v => [(a, v)]
  | (k, w) :: rest, a, v => if a < k then (a, v) :: (k, w) :: rest else (k, w) :: Memory.insert rest a v

/-- Memory with one byte written; writing what an unlisted address reads as leaves no entry. -/
def Memory.write (m : Memory) (a : Nat) (v : Byte) : Memory :=
  if v = Config.unwritten then Memory.erase m a else Memory.insert (Memory.erase m a) a v

/-- `MemRead(addr, 1)` (20_memory.md R50). -/
def State.readByte (s : State) (addr : Word) : Byte := Memory.read s.mem addr.toNat

/-- `MemRead(addr, 2)` (20_memory.md R52): little-endian, the second byte wrapping at 0xFFFF. -/
def State.readWord (s : State) (addr : Word) : Word := mk16 (s.readByte (addr + 1)) (s.readByte addr)

/-- `MemWrite(addr, 1, v)` (20_memory.md R51). -/
def State.writeByte (s : State) (addr : Word) (v : Byte) : State := { s with mem := Memory.write s.mem addr.toNat v }

def State.setSP (s : State) (v : Byte) : State := { s with sp := v }

def State.setP (s : State) (v : Byte) : State := { s with p := v }

def State.setPC (s : State) (w : Word) : State := { s with pc := w }

/-- A write to `A` with the flags it defines (10_state.md R21, R35). -/
def State.loadA (s : State) (v : Byte) : State := { s with a := v, p := setZN v s.p }

/-- A write to `X` with the flags it defines (10_state.md R22, R35). -/
def State.loadX (s : State) (v : Byte) : State := { s with x := v, p := setZN v s.p }

/-- A write to `Y` with the flags it defines (10_state.md R23, R35). -/
def State.loadY (s : State) (v : Byte) : State := { s with y := v, p := setZN v s.p }

/-- The address `n` bytes past the opcode, modulo 65536 (10_state.md R25). -/
def State.nextPC (s : State) (n : Nat) : Word := s.pc + BitVec.ofNat 16 n

/-- The advance past an instruction of `n` bytes (40_engine_and_addressing.md R106). -/
def State.advance (s : State) (n : Nat) : State := s.setPC (s.nextPC n)

/-- The address the stack pointer designates: `0x0100 | SP` (10_state.md R24). -/
def stackAddr (sp : Byte) : Word := mk16 Config.stackPage sp

/-- `Push8(v)` (20_memory.md R58): writes, then decrements. -/
def State.push8 (s : State) (v : Byte) : State := (s.writeByte (stackAddr s.sp) v).setSP (s.sp - 1)

/-- `Pull8()` (20_memory.md R59): increments, then reads. -/
def State.pull8 (s : State) : Byte × State :=
  let s1 := s.setSP (s.sp + 1)
  (s1.readByte (stackAddr s1.sp), s1)

/-- `Push16(w)` (20_memory.md R60): the high byte first. -/
def State.push16 (s : State) (w : Word) : State := (s.push8 (hi8 w)).push8 (lo8 w)

/-- `Pull16()` (20_memory.md R61): the low byte first. -/
def State.pull16 (s : State) : Word × State :=
  let l := s.pull8
  let h := l.2.pull8
  (mk16 h.1 l.1, h.2)

/-- Entering a terminal run status: the one way the core stops (60_exceptions.md R240, R246). Nothing is pushed, no
vector is read, no register is written. The halt is `stop .halted` (47_flags_transfer_stack_misc.md R232). -/
def State.stop (s : State) (st : RunStatus) : State := { s with run := st }

/-- `raise DecodeFault(op, pc0)` (60_exceptions.md R241): `PC` stays at the illegal byte. -/
def State.raiseDecodeFault (s : State) (op : Byte) : State := s.stop (.faulted op s.pc)

/-- `raise HookAbort` (60_exceptions.md R242), on the state the hook returned. -/
def State.raiseHookAbort (s : State) : State := s.stop .aborted

/-- RTI (46_control_flow.md R203; 60_exceptions.md R247): pulls all eight bits of `P`, then `PC`, with no increment; it
has no effect on the run status. -/
def State.returnFromInterrupt (s : State) : State :=
  let f := s.pull8
  let w := f.2.pull16
  (w.2.setP f.1).setPC w.1

end Sys2Proof.Machine
end

