-- ==== Sys2Proof/Machine/Operands.lean ====
section
/-! DEFINITION. The addressing-mode resolver (40_engine_and_addressing.md R110 to R121) and the data read through it. -/

namespace Sys2Proof.Machine

/-- A pointer in the zero page: the high byte is read at the next address inside the zero page
(40_engine_and_addressing.md R117, R118). -/
def zeroPagePointer (p : Byte) (s : State) : Word :=
  mk16 (s.readByte (zext16 (p + 1))) (s.readByte (zext16 p))

/-- The effective address (40_engine_and_addressing.md R110 to R118), total on the nine modes (R121). It is computed
while `PC` still is the address of the opcode. -/
def resolve : Addressing → State → Word
  | .imm _, s => s.nextPC 1
  | .zp b, _ => zext16 b
  | .zpx b, s => zext16 (b + s.x)
  | .zpy b, s => zext16 (b + s.y)
  | .abs w, _ => w
  | .abx w, s => w + zext16 s.x
  | .aby w, s => w + zext16 s.y
  | .izx b, s => zeroPagePointer (b + s.x) s
  | .izy b, s => zeroPagePointer b s + zext16 s.y

/-- The operand byte. In the immediate mode it is `b1`, the byte the fetch read at the effective address
(40_engine_and_addressing.md R110); in every other mode the byte at the effective address. -/
def operand : Addressing → State → Byte
  | .imm v, _ => v
  | .zp b, s => s.readByte (resolve (.zp b) s)
  | .zpx b, s => s.readByte (resolve (.zpx b) s)
  | .zpy b, s => s.readByte (resolve (.zpy b) s)
  | .abs w, s => s.readByte (resolve (.abs w) s)
  | .abx w, s => s.readByte (resolve (.abx w) s)
  | .aby w, s => s.readByte (resolve (.aby w) s)
  | .izx b, s => s.readByte (resolve (.izx b) s)
  | .izy b, s => s.readByte (resolve (.izy b) s)

end Sys2Proof.Machine
end

