-- ==== Sys2Proof/Machine/Arithmetic.lean ====
section
/-! DEFINITION. Arithmetic and compare: ADC, SBC, CMP, CPX, CPY (42_arithmetic_compare.md R150 to R156). No form reads
the Decimal flag (R156). -/

namespace Sys2Proof.Machine

/-- The accumulator receives a sum: `A`, C, V from the sum, Z and N from its value (R151). -/
def takeSum (r : Sum8) (s : State) : State :=
  { s with a := r.value, p := setZN r.value (putFlag .v r.overflow (putFlag .c r.carry s.p)) }

/-- ADC in any form (R151). -/
def opAdc (m : Addressing) (s : State) : State :=
  (takeSum (addWithCarry s.a (operand m s) (getFlag .c s.p)) s).advance m.mode.length

/-- SBC in any form (R152): the sum with the one's complement of the operand. -/
def opSbc (m : Addressing) (s : State) : State :=
  (takeSum (addWithCarry s.a (~~~ operand m s) (getFlag .c s.p)) s).advance m.mode.length

/-- CMP, CPX, CPY in any form (R153 to R155): C, Z, N from `reg` against the operand; nothing stored. -/
def opCompare (reg : Byte) (m : Addressing) (s : State) : State :=
  (s.setP (compareFlags reg (operand m s) s.p)).advance m.mode.length

/-- ADC IMM, opcode 69: rule R151, mode rule R110. -/
def execAdcImm (v : Byte) (s : State) : Host.Outcome State Fault Refusal :=
  .next (opAdc (.imm v) s)

/-- ADC ZP, opcode 65: rule R151, mode rule R111. -/
def execAdcZp (b : Byte) (s : State) : Host.Outcome State Fault Refusal :=
  .next (opAdc (.zp b) s)

/-- ADC ZPX, opcode 75: rule R151, mode rule R112. -/
def execAdcZpx (b : Byte) (s : State) : Host.Outcome State Fault Refusal :=
  .next (opAdc (.zpx b) s)

/-- ADC ABS, opcode 6D: rule R151, mode rule R114. -/
def execAdcAbs (w : Word) (s : State) : Host.Outcome State Fault Refusal :=
  .next (opAdc (.abs w) s)

/-- ADC ABX, opcode 7D: rule R151, mode rule R115. -/
def execAdcAbx (w : Word) (s : State) : Host.Outcome State Fault Refusal :=
  .next (opAdc (.abx w) s)

/-- ADC ABY, opcode 79: rule R151, mode rule R116. -/
def execAdcAby (w : Word) (s : State) : Host.Outcome State Fault Refusal :=
  .next (opAdc (.aby w) s)

/-- ADC IZX, opcode 61: rule R151, mode rule R117. -/
def execAdcIzx (b : Byte) (s : State) : Host.Outcome State Fault Refusal :=
  .next (opAdc (.izx b) s)

/-- ADC IZY, opcode 71: rule R151, mode rule R118. -/
def execAdcIzy (b : Byte) (s : State) : Host.Outcome State Fault Refusal :=
  .next (opAdc (.izy b) s)

/-- SBC IMM, opcode E9: rule R152, mode rule R110. -/
def execSbcImm (v : Byte) (s : State) : Host.Outcome State Fault Refusal :=
  .next (opSbc (.imm v) s)

/-- SBC ZP, opcode E5: rule R152, mode rule R111. -/
def execSbcZp (b : Byte) (s : State) : Host.Outcome State Fault Refusal :=
  .next (opSbc (.zp b) s)

/-- SBC ZPX, opcode F5: rule R152, mode rule R112. -/
def execSbcZpx (b : Byte) (s : State) : Host.Outcome State Fault Refusal :=
  .next (opSbc (.zpx b) s)

/-- SBC ABS, opcode ED: rule R152, mode rule R114. -/
def execSbcAbs (w : Word) (s : State) : Host.Outcome State Fault Refusal :=
  .next (opSbc (.abs w) s)

/-- SBC ABX, opcode FD: rule R152, mode rule R115. -/
def execSbcAbx (w : Word) (s : State) : Host.Outcome State Fault Refusal :=
  .next (opSbc (.abx w) s)

/-- SBC ABY, opcode F9: rule R152, mode rule R116. -/
def execSbcAby (w : Word) (s : State) : Host.Outcome State Fault Refusal :=
  .next (opSbc (.aby w) s)

/-- SBC IZX, opcode E1: rule R152, mode rule R117. -/
def execSbcIzx (b : Byte) (s : State) : Host.Outcome State Fault Refusal :=
  .next (opSbc (.izx b) s)

/-- SBC IZY, opcode F1: rule R152, mode rule R118. -/
def execSbcIzy (b : Byte) (s : State) : Host.Outcome State Fault Refusal :=
  .next (opSbc (.izy b) s)

/-- CMP IMM, opcode C9: rule R153, mode rule R110. -/
def execCmpImm (v : Byte) (s : State) : Host.Outcome State Fault Refusal :=
  .next (opCompare s.a (.imm v) s)

/-- CMP ZP, opcode C5: rule R153, mode rule R111. -/
def execCmpZp (b : Byte) (s : State) : Host.Outcome State Fault Refusal :=
  .next (opCompare s.a (.zp b) s)

/-- CMP ZPX, opcode D5: rule R153, mode rule R112. -/
def execCmpZpx (b : Byte) (s : State) : Host.Outcome State Fault Refusal :=
  .next (opCompare s.a (.zpx b) s)

/-- CMP ABS, opcode CD: rule R153, mode rule R114. -/
def execCmpAbs (w : Word) (s : State) : Host.Outcome State Fault Refusal :=
  .next (opCompare s.a (.abs w) s)

/-- CMP ABX, opcode DD: rule R153, mode rule R115. -/
def execCmpAbx (w : Word) (s : State) : Host.Outcome State Fault Refusal :=
  .next (opCompare s.a (.abx w) s)

/-- CMP ABY, opcode D9: rule R153, mode rule R116. -/
def execCmpAby (w : Word) (s : State) : Host.Outcome State Fault Refusal :=
  .next (opCompare s.a (.aby w) s)

/-- CMP IZX, opcode C1: rule R153, mode rule R117. -/
def execCmpIzx (b : Byte) (s : State) : Host.Outcome State Fault Refusal :=
  .next (opCompare s.a (.izx b) s)

/-- CMP IZY, opcode D1: rule R153, mode rule R118. -/
def execCmpIzy (b : Byte) (s : State) : Host.Outcome State Fault Refusal :=
  .next (opCompare s.a (.izy b) s)

/-- CPX IMM, opcode E0: rule R154, mode rule R110. -/
def execCpxImm (v : Byte) (s : State) : Host.Outcome State Fault Refusal :=
  .next (opCompare s.x (.imm v) s)

/-- CPX ZP, opcode E4: rule R154, mode rule R111. -/
def execCpxZp (b : Byte) (s : State) : Host.Outcome State Fault Refusal :=
  .next (opCompare s.x (.zp b) s)

/-- CPX ABS, opcode EC: rule R154, mode rule R114. -/
def execCpxAbs (w : Word) (s : State) : Host.Outcome State Fault Refusal :=
  .next (opCompare s.x (.abs w) s)

/-- CPY IMM, opcode C0: rule R155, mode rule R110. -/
def execCpyImm (v : Byte) (s : State) : Host.Outcome State Fault Refusal :=
  .next (opCompare s.y (.imm v) s)

/-- CPY ZP, opcode C4: rule R155, mode rule R111. -/
def execCpyZp (b : Byte) (s : State) : Host.Outcome State Fault Refusal :=
  .next (opCompare s.y (.zp b) s)

/-- CPY ABS, opcode CC: rule R155, mode rule R114. -/
def execCpyAbs (w : Word) (s : State) : Host.Outcome State Fault Refusal :=
  .next (opCompare s.y (.abs w) s)

end Sys2Proof.Machine
end

