-- ==== Sys2Proof/Machine/Control.lean ====
section
/-! DEFINITION. Control transfer: the eight branches, JMP, JSR, RTS, RTI (46_control_flow.md R190 to R204). These write
`PC` themselves (40_engine_and_addressing.md R106); while one runs, `PC` still is the address of its opcode. -/

namespace Sys2Proof.Machine

/-- The branch action (R190): the base is the address of the next instruction, the displacement is signed, the sum
wraps modulo 65536. A target equal to the address of the displacement byte is that address (R106). -/
def opBranch (taken : Bool) (d : Byte) (s : State) : State :=
  if taken then s.setPC (s.nextPC 2 + sext16 d) else s.advance 2

/-- The target of JMP indirect (R200): both bytes come from the page of the pointer. -/
def indirectTarget (ptr : Word) (s : State) : Word :=
  mk16 (s.readByte (mk16 (hi8 ptr) (lo8 ptr + 1))) (s.readByte ptr)

/-- JSR (R201): pushes the address of its own last byte, then jumps. -/
def opJsr (target : Word) (s : State) : State := (s.push16 (s.nextPC 2)).setPC target

/-- RTS (R202): pulls a word and continues one past it. -/
def opRts (s : State) : State :=
  let r := s.pull16
  r.2.setPC (r.1 + 1)

/-- BCC REL, opcode 90: rule R191. -/
def execBcc (d : Byte) (s : State) : Host.Outcome State Fault Refusal :=
  .next (opBranch (!getFlag .c s.p) d s)

/-- BCS REL, opcode B0: rule R192. -/
def execBcs (d : Byte) (s : State) : Host.Outcome State Fault Refusal :=
  .next (opBranch (getFlag .c s.p) d s)

/-- BEQ REL, opcode F0: rule R193. -/
def execBeq (d : Byte) (s : State) : Host.Outcome State Fault Refusal :=
  .next (opBranch (getFlag .z s.p) d s)

/-- BNE REL, opcode D0: rule R194. -/
def execBne (d : Byte) (s : State) : Host.Outcome State Fault Refusal :=
  .next (opBranch (!getFlag .z s.p) d s)

/-- BMI REL, opcode 30: rule R195. -/
def execBmi (d : Byte) (s : State) : Host.Outcome State Fault Refusal :=
  .next (opBranch (getFlag .n s.p) d s)

/-- BPL REL, opcode 10: rule R196. -/
def execBpl (d : Byte) (s : State) : Host.Outcome State Fault Refusal :=
  .next (opBranch (!getFlag .n s.p) d s)

/-- BVC REL, opcode 50: rule R197. -/
def execBvc (d : Byte) (s : State) : Host.Outcome State Fault Refusal :=
  .next (opBranch (!getFlag .v s.p) d s)

/-- BVS REL, opcode 70: rule R198. -/
def execBvs (d : Byte) (s : State) : Host.Outcome State Fault Refusal :=
  .next (opBranch (getFlag .v s.p) d s)

/-- JMP ABS, opcode 4C: rule R199, mode rule R114. -/
def execJmpAbs (w : Word) (s : State) : Host.Outcome State Fault Refusal :=
  .next (s.setPC (resolve (.abs w) s))

/-- JMP IND, opcode 6C: rule R200. -/
def execJmpInd (w : Word) (s : State) : Host.Outcome State Fault Refusal :=
  .next (s.setPC (indirectTarget w s))

/-- JSR ABS, opcode 20: rule R201, mode rule R114. -/
def execJsr (w : Word) (s : State) : Host.Outcome State Fault Refusal :=
  .next (opJsr (resolve (.abs w) s) s)

/-- RTS IMP, opcode 60: rule R202. -/
def execRts (s : State) : Host.Outcome State Fault Refusal :=
  .next (opRts s)

/-- RTI IMP, opcode 40: rule R203. -/
def execRti (s : State) : Host.Outcome State Fault Refusal :=
  .next s.returnFromInterrupt

end Sys2Proof.Machine
end

