-- ==== Sys2Proof/Machine/IncDec.lean ====
section
/-! DEFINITION. Increment and decrement: INC, DEC, INX, INY, DEX, DEY (45_incdec.md R180 to R185). All wrap modulo 256
and write no carry. -/

namespace Sys2Proof.Machine

/-- INC and DEC in any form (R180, R181): the byte at the effective address plus `d` modulo 256, written back; Z and
N from the result. -/
def opAddToMemory (d : Byte) (m : Addressing) (s : State) : State :=
  let ea := resolve m s
  let r := s.readByte ea + d
  ((s.writeByte ea r).setP (setZN r s.p)).advance m.mode.length

/-- INC ZP, opcode E6: rule R180, mode rule R111. -/
def execIncZp (b : Byte) (s : State) : Host.Outcome State Fault Refusal :=
  .next (opAddToMemory 1 (.zp b) s)

/-- INC ZPX, opcode F6: rule R180, mode rule R112. -/
def execIncZpx (b : Byte) (s : State) : Host.Outcome State Fault Refusal :=
  .next (opAddToMemory 1 (.zpx b) s)

/-- INC ABS, opcode EE: rule R180, mode rule R114. -/
def execIncAbs (w : Word) (s : State) : Host.Outcome State Fault Refusal :=
  .next (opAddToMemory 1 (.abs w) s)

/-- INC ABX, opcode FE: rule R180, mode rule R115. -/
def execIncAbx (w : Word) (s : State) : Host.Outcome State Fault Refusal :=
  .next (opAddToMemory 1 (.abx w) s)

/-- DEC ZP, opcode C6: rule R181, mode rule R111. -/
def execDecZp (b : Byte) (s : State) : Host.Outcome State Fault Refusal :=
  .next (opAddToMemory (-1) (.zp b) s)

/-- DEC ZPX, opcode D6: rule R181, mode rule R112. -/
def execDecZpx (b : Byte) (s : State) : Host.Outcome State Fault Refusal :=
  .next (opAddToMemory (-1) (.zpx b) s)

/-- DEC ABS, opcode CE: rule R181, mode rule R114. -/
def execDecAbs (w : Word) (s : State) : Host.Outcome State Fault Refusal :=
  .next (opAddToMemory (-1) (.abs w) s)

/-- DEC ABX, opcode DE: rule R181, mode rule R115. -/
def execDecAbx (w : Word) (s : State) : Host.Outcome State Fault Refusal :=
  .next (opAddToMemory (-1) (.abx w) s)

/-- INX IMP, opcode E8: rule R182. -/
def execInx (s : State) : Host.Outcome State Fault Refusal :=
  .next ((s.loadX (s.x + 1)).advance 1)

/-- INY IMP, opcode C8: rule R183. -/
def execIny (s : State) : Host.Outcome State Fault Refusal :=
  .next ((s.loadY (s.y + 1)).advance 1)

/-- DEX IMP, opcode CA: rule R184. -/
def execDex (s : State) : Host.Outcome State Fault Refusal :=
  .next ((s.loadX (s.x - 1)).advance 1)

/-- DEY IMP, opcode 88: rule R185. -/
def execDey (s : State) : Host.Outcome State Fault Refusal :=
  .next ((s.loadY (s.y - 1)).advance 1)

end Sys2Proof.Machine
end

