-- ==== Sys2Proof/Machine/LoadStore.lean ====
section
/-! DEFINITION. Load and store: LDA, LDX, LDY, STA, STX, STY (41_load_store.md R140 to R145). -/

namespace Sys2Proof.Machine

/-- LDA in any form (R140): the operand to `A`, Z and N from it. -/
def opLda (m : Addressing) (s : State) : State := (s.loadA (operand m s)).advance m.mode.length

/-- LDX in any form (R141): the operand to `X`, Z and N from it. -/
def opLdx (m : Addressing) (s : State) : State := (s.loadX (operand m s)).advance m.mode.length

/-- LDY in any form (R142): the operand to `Y`, Z and N from it. -/
def opLdy (m : Addressing) (s : State) : State := (s.loadY (operand m s)).advance m.mode.length

/-- STA, STX, STY in any form (R143 to R145): a register's byte to the effective address; no flag. -/
def opStore (v : Byte) (m : Addressing) (s : State) : State :=
  (s.writeByte (resolve m s) v).advance m.mode.length

/-- LDA IMM, opcode A9: rule R140, mode rule R110. -/
def execLdaImm (v : Byte) (s : State) : Host.Outcome State Fault Refusal :=
  .next (opLda (.imm v) s)

/-- LDA ZP, opcode A5: rule R140, mode rule R111. -/
def execLdaZp (b : Byte) (s : State) : Host.Outcome State Fault Refusal :=
  .next (opLda (.zp b) s)

/-- LDA ZPX, opcode B5: rule R140, mode rule R112. -/
def execLdaZpx (b : Byte) (s : State) : Host.Outcome State Fault Refusal :=
  .next (opLda (.zpx b) s)

/-- LDA ABS, opcode AD: rule R140, mode rule R114. -/
def execLdaAbs (w : Word) (s : State) : Host.Outcome State Fault Refusal :=
  .next (opLda (.abs w) s)

/-- LDA ABX, opcode BD: rule R140, mode rule R115. -/
def execLdaAbx (w : Word) (s : State) : Host.Outcome State Fault Refusal :=
  .next (opLda (.abx w) s)

/-- LDA ABY, opcode B9: rule R140, mode rule R116. -/
def execLdaAby (w : Word) (s : State) : Host.Outcome State Fault Refusal :=
  .next (opLda (.aby w) s)

/-- LDA IZX, opcode A1: rule R140, mode rule R117. -/
def execLdaIzx (b : Byte) (s : State) : Host.Outcome State Fault Refusal :=
  .next (opLda (.izx b) s)

/-- LDA IZY, opcode B1: rule R140, mode rule R118. -/
def execLdaIzy (b : Byte) (s : State) : Host.Outcome State Fault Refusal :=
  .next (opLda (.izy b) s)

/-- LDX IMM, opcode A2: rule R141, mode rule R110. -/
def execLdxImm (v : Byte) (s : State) : Host.Outcome State Fault Refusal :=
  .next (opLdx (.imm v) s)

/-- LDX ZP, opcode A6: rule R141, mode rule R111. -/
def execLdxZp (b : Byte) (s : State) : Host.Outcome State Fault Refusal :=
  .next (opLdx (.zp b) s)

/-- LDX ZPY, opcode B6: rule R141, mode rule R113. -/
def execLdxZpy (b : Byte) (s : State) : Host.Outcome State Fault Refusal :=
  .next (opLdx (.zpy b) s)

/-- LDX ABS, opcode AE: rule R141, mode rule R114. -/
def execLdxAbs (w : Word) (s : State) : Host.Outcome State Fault Refusal :=
  .next (opLdx (.abs w) s)

/-- LDX ABY, opcode BE: rule R141, mode rule R116. -/
def execLdxAby (w : Word) (s : State) : Host.Outcome State Fault Refusal :=
  .next (opLdx (.aby w) s)

/-- LDY IMM, opcode A0: rule R142, mode rule R110. -/
def execLdyImm (v : Byte) (s : State) : Host.Outcome State Fault Refusal :=
  .next (opLdy (.imm v) s)

/-- LDY ZP, opcode A4: rule R142, mode rule R111. -/
def execLdyZp (b : Byte) (s : State) : Host.Outcome State Fault Refusal :=
  .next (opLdy (.zp b) s)

/-- LDY ZPX, opcode B4: rule R142, mode rule R112. -/
def execLdyZpx (b : Byte) (s : State) : Host.Outcome State Fault Refusal :=
  .next (opLdy (.zpx b) s)

/-- LDY ABS, opcode AC: rule R142, mode rule R114. -/
def execLdyAbs (w : Word) (s : State) : Host.Outcome State Fault Refusal :=
  .next (opLdy (.abs w) s)

/-- LDY ABX, opcode BC: rule R142, mode rule R115. -/
def execLdyAbx (w : Word) (s : State) : Host.Outcome State Fault Refusal :=
  .next (opLdy (.abx w) s)

/-- STA ZP, opcode 85: rule R143, mode rule R111. -/
def execStaZp (b : Byte) (s : State) : Host.Outcome State Fault Refusal :=
  .next (opStore s.a (.zp b) s)

/-- STA ZPX, opcode 95: rule R143, mode rule R112. -/
def execStaZpx (b : Byte) (s : State) : Host.Outcome State Fault Refusal :=
  .next (opStore s.a (.zpx b) s)

/-- STA ABS, opcode 8D: rule R143, mode rule R114. -/
def execStaAbs (w : Word) (s : State) : Host.Outcome State Fault Refusal :=
  .next (opStore s.a (.abs w) s)

/-- STA ABX, opcode 9D: rule R143, mode rule R115. -/
def execStaAbx (w : Word) (s : State) : Host.Outcome State Fault Refusal :=
  .next (opStore s.a (.abx w) s)

/-- STA ABY, opcode 99: rule R143, mode rule R116. -/
def execStaAby (w : Word) (s : State) : Host.Outcome State Fault Refusal :=
  .next (opStore s.a (.aby w) s)

/-- STA IZX, opcode 81: rule R143, mode rule R117. -/
def execStaIzx (b : Byte) (s : State) : Host.Outcome State Fault Refusal :=
  .next (opStore s.a (.izx b) s)

/-- STA IZY, opcode 91: rule R143, mode rule R118. -/
def execStaIzy (b : Byte) (s : State) : Host.Outcome State Fault Refusal :=
  .next (opStore s.a (.izy b) s)

/-- STX ZP, opcode 86: rule R144, mode rule R111. -/
def execStxZp (b : Byte) (s : State) : Host.Outcome State Fault Refusal :=
  .next (opStore s.x (.zp b) s)

/-- STX ZPY, opcode 96: rule R144, mode rule R113. -/
def execStxZpy (b : Byte) (s : State) : Host.Outcome State Fault Refusal :=
  .next (opStore s.x (.zpy b) s)

/-- STX ABS, opcode 8E: rule R144, mode rule R114. -/
def execStxAbs (w : Word) (s : State) : Host.Outcome State Fault Refusal :=
  .next (opStore s.x (.abs w) s)

/-- STY ZP, opcode 84: rule R145, mode rule R111. -/
def execStyZp (b : Byte) (s : State) : Host.Outcome State Fault Refusal :=
  .next (opStore s.y (.zp b) s)

/-- STY ZPX, opcode 94: rule R145, mode rule R112. -/
def execStyZpx (b : Byte) (s : State) : Host.Outcome State Fault Refusal :=
  .next (opStore s.y (.zpx b) s)

/-- STY ABS, opcode 8C: rule R145, mode rule R114. -/
def execStyAbs (w : Word) (s : State) : Host.Outcome State Fault Refusal :=
  .next (opStore s.y (.abs w) s)

end Sys2Proof.Machine
end

