-- ==== Sys2Proof/Machine/Logic.lean ====
section
/-! DEFINITION. Logic and bit test: AND, ORA, EOR, BIT (43_logic_bit.md R160 to R163). -/

namespace Sys2Proof.Machine

/-- AND, ORA, EOR in any form (R160 to R162): `A` combined with the operand to `A`, Z and N from the result. -/
def opLogic (f : Byte → Byte → Byte) (m : Addressing) (s : State) : State :=
  (s.loadA (f s.a (operand m s))).advance m.mode.length

/-- BIT in either form (R163): Z from `A` and the operand, V and N from bits 6 and 7 of the operand. -/
def opBit (m : Addressing) (s : State) : State :=
  (s.setP (bitFlags s.a (operand m s) s.p)).advance m.mode.length

/-- AND IMM, opcode 29: rule R160, mode rule R110. -/
def execAndImm (v : Byte) (s : State) : Host.Outcome State Fault Refusal :=
  .next (opLogic (· &&& ·) (.imm v) s)

/-- AND ZP, opcode 25: rule R160, mode rule R111. -/
def execAndZp (b : Byte) (s : State) : Host.Outcome State Fault Refusal :=
  .next (opLogic (· &&& ·) (.zp b) s)

/-- AND ZPX, opcode 35: rule R160, mode rule R112. -/
def execAndZpx (b : Byte) (s : State) : Host.Outcome State Fault Refusal :=
  .next (opLogic (· &&& ·) (.zpx b) s)

/-- AND ABS, opcode 2D: rule R160, mode rule R114. -/
def execAndAbs (w : Word) (s : State) : Host.Outcome State Fault Refusal :=
  .next (opLogic (· &&& ·) (.abs w) s)

/-- AND ABX, opcode 3D: rule R160, mode rule R115. -/
def execAndAbx (w : Word) (s : State) : Host.Outcome State Fault Refusal :=
  .next (opLogic (· &&& ·) (.abx w) s)

/-- AND ABY, opcode 39: rule R160, mode rule R116. -/
def execAndAby (w : Word) (s : State) : Host.Outcome State Fault Refusal :=
  .next (opLogic (· &&& ·) (.aby w) s)

/-- AND IZX, opcode 21: rule R160, mode rule R117. -/
def execAndIzx (b : Byte) (s : State) : Host.Outcome State Fault Refusal :=
  .next (opLogic (· &&& ·) (.izx b) s)

/-- AND IZY, opcode 31: rule R160, mode rule R118. -/
def execAndIzy (b : Byte) (s : State) : Host.Outcome State Fault Refusal :=
  .next (opLogic (· &&& ·) (.izy b) s)

/-- ORA IMM, opcode 09: rule R161, mode rule R110. -/
def execOraImm (v : Byte) (s : State) : Host.Outcome State Fault Refusal :=
  .next (opLogic (· ||| ·) (.imm v) s)

/-- ORA ZP, opcode 05: rule R161, mode rule R111. -/
def execOraZp (b : Byte) (s : State) : Host.Outcome State Fault Refusal :=
  .next (opLogic (· ||| ·) (.zp b) s)

/-- ORA ZPX, opcode 15: rule R161, mode rule R112. -/
def execOraZpx (b : Byte) (s : State) : Host.Outcome State Fault Refusal :=
  .next (opLogic (· ||| ·) (.zpx b) s)

/-- ORA ABS, opcode 0D: rule R161, mode rule R114. -/
def execOraAbs (w : Word) (s : State) : Host.Outcome State Fault Refusal :=
  .next (opLogic (· ||| ·) (.abs w) s)

/-- ORA ABX, opcode 1D: rule R161, mode rule R115. -/
def execOraAbx (w : Word) (s : State) : Host.Outcome State Fault Refusal :=
  .next (opLogic (· ||| ·) (.abx w) s)

/-- ORA ABY, opcode 19: rule R161, mode rule R116. -/
def execOraAby (w : Word) (s : State) : Host.Outcome State Fault Refusal :=
  .next (opLogic (· ||| ·) (.aby w) s)

/-- ORA IZX, opcode 01: rule R161, mode rule R117. -/
def execOraIzx (b : Byte) (s : State) : Host.Outcome State Fault Refusal :=
  .next (opLogic (· ||| ·) (.izx b) s)

/-- ORA IZY, opcode 11: rule R161, mode rule R118. -/
def execOraIzy (b : Byte) (s : State) : Host.Outcome State Fault Refusal :=
  .next (opLogic (· ||| ·) (.izy b) s)

/-- EOR IMM, opcode 49: rule R162, mode rule R110. -/
def execEorImm (v : Byte) (s : State) : Host.Outcome State Fault Refusal :=
  .next (opLogic (· ^^^ ·) (.imm v) s)

/-- EOR ZP, opcode 45: rule R162, mode rule R111. -/
def execEorZp (b : Byte) (s : State) : Host.Outcome State Fault Refusal :=
  .next (opLogic (· ^^^ ·) (.zp b) s)

/-- EOR ZPX, opcode 55: rule R162, mode rule R112. -/
def execEorZpx (b : Byte) (s : State) : Host.Outcome State Fault Refusal :=
  .next (opLogic (· ^^^ ·) (.zpx b) s)

/-- EOR ABS, opcode 4D: rule R162, mode rule R114. -/
def execEorAbs (w : Word) (s : State) : Host.Outcome State Fault Refusal :=
  .next (opLogic (· ^^^ ·) (.abs w) s)

/-- EOR ABX, opcode 5D: rule R162, mode rule R115. -/
def execEorAbx (w : Word) (s : State) : Host.Outcome State Fault Refusal :=
  .next (opLogic (· ^^^ ·) (.abx w) s)

/-- EOR ABY, opcode 59: rule R162, mode rule R116. -/
def execEorAby (w : Word) (s : State) : Host.Outcome State Fault Refusal :=
  .next (opLogic (· ^^^ ·) (.aby w) s)

/-- EOR IZX, opcode 41: rule R162, mode rule R117. -/
def execEorIzx (b : Byte) (s : State) : Host.Outcome State Fault Refusal :=
  .next (opLogic (· ^^^ ·) (.izx b) s)

/-- EOR IZY, opcode 51: rule R162, mode rule R118. -/
def execEorIzy (b : Byte) (s : State) : Host.Outcome State Fault Refusal :=
  .next (opLogic (· ^^^ ·) (.izy b) s)

/-- BIT ZP, opcode 24: rule R163, mode rule R111. -/
def execBitZp (b : Byte) (s : State) : Host.Outcome State Fault Refusal :=
  .next (opBit (.zp b) s)

/-- BIT ABS, opcode 2C: rule R163, mode rule R114. -/
def execBitAbs (w : Word) (s : State) : Host.Outcome State Fault Refusal :=
  .next (opBit (.abs w) s)

end Sys2Proof.Machine
end

