-- ==== Sys2Proof/Machine/Misc.lean ====
section
/-! DEFINITION. Flags, transfers, stack, no-op and halt (47_flags_transfer_stack_misc.md R210 to R227, R232). Every
instruction here is one byte long. -/

namespace Sys2Proof.Machine

/-- A flag set or cleared, no other changed (R210 to R216). -/
def opFlag (f : Flag) (b : Bool) (s : State) : State := (s.setP (putFlag f b s.p)).advance 1

/-- PLA (R224): the pulled byte to `A`, Z and N from it. -/
def opPla (s : State) : State :=
  let r := s.pull8
  (r.2.loadA r.1).advance 1

/-- PLP (R226): the pulled byte to `P`, all eight bits. -/
def opPlp (s : State) : State :=
  let r := s.pull8
  (r.2.setP r.1).advance 1

/-- CLC IMP, opcode 18: rule R210. -/
def execClc (s : State) : Host.Outcome State Fault Refusal :=
  .next (opFlag .c false s)

/-- SEC IMP, opcode 38: rule R211. -/
def execSec (s : State) : Host.Outcome State Fault Refusal :=
  .next (opFlag .c true s)

/-- CLD IMP, opcode D8: rule R212. -/
def execCld (s : State) : Host.Outcome State Fault Refusal :=
  .next (opFlag .d false s)

/-- SED IMP, opcode F8: rule R213. -/
def execSed (s : State) : Host.Outcome State Fault Refusal :=
  .next (opFlag .d true s)

/-- CLI IMP, opcode 58: rule R214. -/
def execCli (s : State) : Host.Outcome State Fault Refusal :=
  .next (opFlag .i false s)

/-- SEI IMP, opcode 78: rule R215. -/
def execSei (s : State) : Host.Outcome State Fault Refusal :=
  .next (opFlag .i true s)

/-- CLV IMP, opcode B8: rule R216. -/
def execClv (s : State) : Host.Outcome State Fault Refusal :=
  .next (opFlag .v false s)

/-- TAX IMP, opcode AA: rule R217. -/
def execTax (s : State) : Host.Outcome State Fault Refusal :=
  .next ((s.loadX s.a).advance 1)

/-- TXA IMP, opcode 8A: rule R218. -/
def execTxa (s : State) : Host.Outcome State Fault Refusal :=
  .next ((s.loadA s.x).advance 1)

/-- TAY IMP, opcode A8: rule R219. -/
def execTay (s : State) : Host.Outcome State Fault Refusal :=
  .next ((s.loadY s.a).advance 1)

/-- TYA IMP, opcode 98: rule R220. -/
def execTya (s : State) : Host.Outcome State Fault Refusal :=
  .next ((s.loadA s.y).advance 1)

/-- TSX IMP, opcode BA: rule R221. -/
def execTsx (s : State) : Host.Outcome State Fault Refusal :=
  .next ((s.loadX s.sp).advance 1)

/-- TXS IMP, opcode 9A: rule R222. -/
def execTxs (s : State) : Host.Outcome State Fault Refusal :=
  .next ((s.setSP s.x).advance 1)

/-- PHA IMP, opcode 48: rule R223. -/
def execPha (s : State) : Host.Outcome State Fault Refusal :=
  .next ((s.push8 s.a).advance 1)

/-- PLA IMP, opcode 68: rule R224. -/
def execPla (s : State) : Host.Outcome State Fault Refusal :=
  .next (opPla s)

/-- PHP IMP, opcode 08: rule R225. -/
def execPhp (s : State) : Host.Outcome State Fault Refusal :=
  .next ((s.push8 s.p).advance 1)

/-- PLP IMP, opcode 28: rule R226. -/
def execPlp (s : State) : Host.Outcome State Fault Refusal :=
  .next (opPlp s)

/-- NOP IMP, opcode EA: rule R227. -/
def execNop (s : State) : Host.Outcome State Fault Refusal :=
  .next (s.advance 1)

/-- BRK IMP, opcode 00: rule R232. -/
def execBrk (s : State) : Host.Outcome State Fault Refusal :=
  .next ((s.advance 1).stop .halted)

end Sys2Proof.Machine
end

