-- ==== Sys2Proof/Machine/Shift.lean ====
section
/-! DEFINITION. Shift and rotate: ASL, LSR, ROL, ROR, accumulator and memory forms (44_shift_rotate.md R170 to R178). The
value functions are in Flags.lean. -/

namespace Sys2Proof.Machine

/-- The accumulator form of a shift (R171, R173, R175, R177): `A` shifted to `A`, the bit lost to C, Z and N from
the result. -/
def opShiftA (f : Byte → Bool → Byte × Bool) (s : State) : State :=
  let r := f s.a (getFlag .c s.p)
  ({ s with a := r.1, p := shiftFlags r s.p } : State).advance 1

/-- The memory form of a shift (R172, R174, R176, R178): one read and one write of the effective address, the bit lost
to C, Z and N from the result. -/
def opShiftM (f : Byte → Bool → Byte × Bool) (m : Addressing) (s : State) : State :=
  let ea := resolve m s
  let r := f (s.readByte ea) (getFlag .c s.p)
  ((s.writeByte ea r.1).setP (shiftFlags r s.p)).advance m.mode.length

/-- ASL ACC, opcode 0A: rule R171. -/
def execAslAcc (s : State) : Host.Outcome State Fault Refusal :=
  .next (opShiftA shiftAsl s)

/-- ASL ZP, opcode 06: rule R172, mode rule R111. -/
def execAslZp (b : Byte) (s : State) : Host.Outcome State Fault Refusal :=
  .next (opShiftM shiftAsl (.zp b) s)

/-- ASL ZPX, opcode 16: rule R172, mode rule R112. -/
def execAslZpx (b : Byte) (s : State) : Host.Outcome State Fault Refusal :=
  .next (opShiftM shiftAsl (.zpx b) s)

/-- ASL ABS, opcode 0E: rule R172, mode rule R114. -/
def execAslAbs (w : Word) (s : State) : Host.Outcome State Fault Refusal :=
  .next (opShiftM shiftAsl (.abs w) s)

/-- ASL ABX, opcode 1E: rule R172, mode rule R115. -/
def execAslAbx (w : Word) (s : State) : Host.Outcome State Fault Refusal :=
  .next (opShiftM shiftAsl (.abx w) s)

/-- LSR ACC, opcode 4A: rule R173. -/
def execLsrAcc (s : State) : Host.Outcome State Fault Refusal :=
  .next (opShiftA shiftLsr s)

/-- LSR ZP, opcode 46: rule R174, mode rule R111. -/
def execLsrZp (b : Byte) (s : State) : Host.Outcome State Fault Refusal :=
  .next (opShiftM shiftLsr (.zp b) s)

/-- LSR ZPX, opcode 56: rule R174, mode rule R112. -/
def execLsrZpx (b : Byte) (s : State) : Host.Outcome State Fault Refusal :=
  .next (opShiftM shiftLsr (.zpx b) s)

/-- LSR ABS, opcode 4E: rule R174, mode rule R114. -/
def execLsrAbs (w : Word) (s : State) : Host.Outcome State Fault Refusal :=
  .next (opShiftM shiftLsr (.abs w) s)

/-- LSR ABX, opcode 5E: rule R174, mode rule R115. -/
def execLsrAbx (w : Word) (s : State) : Host.Outcome State Fault Refusal :=
  .next (opShiftM shiftLsr (.abx w) s)

/-- ROL ACC, opcode 2A: rule R175. -/
def execRolAcc (s : State) : Host.Outcome State Fault Refusal :=
  .next (opShiftA shiftRol s)

/-- ROL ZP, opcode 26: rule R176, mode rule R111. -/
def execRolZp (b : Byte) (s : State) : Host.Outcome State Fault Refusal :=
  .next (opShiftM shiftRol (.zp b) s)

/-- ROL ZPX, opcode 36: rule R176, mode rule R112. -/
def execRolZpx (b : Byte) (s : State) : Host.Outcome State Fault Refusal :=
  .next (opShiftM shiftRol (.zpx b) s)

/-- ROL ABS, opcode 2E: rule R176, mode rule R114. -/
def execRolAbs (w : Word) (s : State) : Host.Outcome State Fault Refusal :=
  .next (opShiftM shiftRol (.abs w) s)

/-- ROL ABX, opcode 3E: rule R176, mode rule R115. -/
def execRolAbx (w : Word) (s : State) : Host.Outcome State Fault Refusal :=
  .next (opShiftM shiftRol (.abx w) s)

/-- ROR ACC, opcode 6A: rule R177. -/
def execRorAcc (s : State) : Host.Outcome State Fault Refusal :=
  .next (opShiftA shiftRor s)

/-- ROR ZP, opcode 66: rule R178, mode rule R111. -/
def execRorZp (b : Byte) (s : State) : Host.Outcome State Fault Refusal :=
  .next (opShiftM shiftRor (.zp b) s)

/-- ROR ZPX, opcode 76: rule R178, mode rule R112. -/
def execRorZpx (b : Byte) (s : State) : Host.Outcome State Fault Refusal :=
  .next (opShiftM shiftRor (.zpx b) s)

/-- ROR ABS, opcode 6E: rule R178, mode rule R114. -/
def execRorAbs (w : Word) (s : State) : Host.Outcome State Fault Refusal :=
  .next (opShiftM shiftRor (.abs w) s)

/-- ROR ABX, opcode 7E: rule R178, mode rule R115. -/
def execRorAbx (w : Word) (s : State) : Host.Outcome State Fault Refusal :=
  .next (opShiftM shiftRor (.abx w) s)

end Sys2Proof.Machine
end

