-- ==== Sys2Proof/Machine/Engine.lean ====
section
/-! DEFINITION. The engine's step (40_engine_and_addressing.md R100 to R108): the hook, the fetch, the decode, and the
instruction's meaning, which also writes `PC` (R106). -/

namespace Sys2Proof.Machine

/-- What the hook sees of the state (60_exceptions.md R252). -/
def State.view (s : State) : HookView :=
  { a := s.a, x := s.x, y := s.y, sp := s.sp, p := s.p, pc := s.pc, mem := s.mem }

/-- The state with what the hook returned in place of what it saw; the run status is not the hook's to write
(60_exceptions.md R253). -/
def State.withView (s : State) (v : HookView) : State :=
  { s with a := v.a, x := v.x, y := v.y, sp := v.sp, p := v.p, pc := v.pc, mem := v.mem }

/-- No hook: a no-op that continues (60_exceptions.md R254). -/
def defaultHook : Hook := fun v => (v, .goOn)

/-- One write of a hook (60_exceptions.md R253). -/
def HookWrite.apply : HookWrite → HookView → HookView
  | .a b, v => { v with a := b }
  | .x b, v => { v with x := b }
  | .y b, v => { v with y := b }
  | .sp b, v => { v with sp := b }
  | .p b, v => { v with p := b }
  | .pc w, v => { v with pc := w }
  | .mem addr b, v => { v with mem := Memory.write v.mem addr.toNat b }

/-- One answer of the hook, as the hook that gives it: its writes in order, then its verdict. -/
def HookCall.toHook (c : HookCall) : Hook :=
  fun v => (c.writes.foldl (fun u w => HookWrite.apply w u) v, c.verdict)

/-- The bytes at `PC` and the two addresses after it, modulo 65536 (30_encoding.md R80; 10_state.md R25). -/
def State.fetchBytes (s : State) : List Byte :=
  [s.readByte s.pc, s.readByte (s.nextPC 1), s.readByte (s.nextPC 2)]

/-- Steps 2 to 6 of the step (40_engine_and_addressing.md R108): fetch, decode, act. A byte with no table entry raises
the decode fault and no operand byte is used (60_exceptions.md R241). -/
def fetchAndExecute (s : State) : Host.Outcome State Fault Refusal :=
  match lookupOpcode (s.readByte s.pc) with
  | none => .next (s.raiseDecodeFault (s.readByte s.pc))
  | some f => exec (f.build (s.readByte (s.nextPC 1)) (s.readByte (s.nextPC 2))) s

/-- What a step does when there is one, with the hook as an argument (40_engine_and_addressing.md R108): the hook first
(R102), so that its abort wins over an illegal opcode (60_exceptions.md R245). -/
def runStepWith (h : Hook) (s : State) : Host.Outcome State Fault Refusal :=
  match (h s.view).2 with
  | .abort => .next (s.withView (h s.view).1).raiseHookAbort
  | .goOn => fetchAndExecute (s.withView (h s.view).1)

/-- The step with the hook as an argument. A terminal run status has no step (10_state.md R38;
40_engine_and_addressing.md R107). -/
def stepWith (h : Hook) (s : State) : Host.Outcome State Fault Refusal :=
  match s.run with
  | .running => runStepWith h s
  | .halted => .fault .afterHalt
  | .faulted op addr => .fault (.afterDecodeFault op addr)
  | .aborted => .fault .afterHookAbort

/-- The step with the hook whose next answers the state holds; with none, the default hook. Each step reads one. -/
def stepQueued (s : State) : Host.Outcome State Fault Refusal :=
  match s.hookCalls with
  | [] => stepWith defaultHook s
  | c :: rest => stepWith c.toHook { s with hookCalls := rest }

/-- The state with the three bytes of an instruction stored where the next step fetches, and nothing in the way of that
fetch: the machine running, and no answer of the hook pending. -/
def State.placeInstruction (s : State) (nbits w : Nat) : State :=
  { ((s.writeByte s.pc (tableByte nbits w 0)).writeByte (s.nextPC 1) (tableByte nbits w 1)).writeByte
      (s.nextPC 2) (tableByte nbits w 2) with run := .running, hookCalls := [] }

end Sys2Proof.Machine
end

