-- ==== Sys2Proof/Machine/Step.lean ====
section
/-! DEFINITION. The step of the machine. Its parts are in Engine.lean. -/

namespace Sys2Proof.Machine

/-- One step (40_engine_and_addressing.md R108), with the hook answers the state holds (log entry 3). -/
def step (s : State) : Host.Outcome State Fault Refusal := stepQueued s

/-- The state with an instruction stored where the next step fetches it. -/
def State.withFetchWord (s : State) (nbits w : Nat) : State := s.placeInstruction nbits w

end Sys2Proof.Machine
end

