-- ==== Sys2Proof/Machine/HostOps.lean ====
section
/-! DEFINITION. What the host does to the machine, between runs (70_reset_and_hazards.md R270 to R278): power-on, load,
reset, run, and the result of a run. None of these is a step. -/

namespace Sys2Proof.Machine

/-- The constructed machine before its first reset (10_state.md R39; 70_reset_and_hazards.md R270): all zero. The spec
names no run status here and lets no step happen; the model takes `halted` (log entry 4). -/
def State.powerOn : State where
  a := 0x00
  x := 0x00
  y := 0x00
  sp := 0x00
  p := 0x00
  pc := 0x0000
  mem := []
  run := .halted
  hookCalls := []

/-- `Reset()` (70_reset_and_hazards.md R271): `Y` and memory are not written. -/
def State.assertReset (s : State) : State :=
  { s with a := 0x00, x := 0x00, p := 0x00, sp := Config.spReset, pc := s.readWord Config.resetVector, run := .running }

/-- Whether an image fits its window (70_reset_and_hazards.md R273): it does not wrap, and it covers neither byte of the
reset vector. -/
def imageFits (base : Word) (prog : List Byte) : Bool :=
  decide (base.toNat + prog.length ≤ Config.addressSpace) &&
  decide (base.toNat + prog.length ≤ 0xFFFC ∨ 0xFFFC < base.toNat) &&
  decide (base.toNat + prog.length ≤ 0xFFFD ∨ 0xFFFD < base.toNat)

/-- The bytes of an image copied to rising addresses (70_reset_and_hazards.md R273). -/
def State.copyImage (s : State) : Word → List Byte → State
  | _, [] => s
  | a, v :: rest => (s.writeByte a v).copyImage (a + 1) rest

/-- `Load(prog)` with `LOAD_BASE` as an argument (70_reset_and_hazards.md R273): the image, then the reset vector. An
image that does not fit is refused. -/
def State.load (s : State) (base : Word) (prog : List Byte) : Host.Outcome State Fault Refusal :=
  if imageFits base prog then
    .next (((s.copyImage base prog).writeByte Config.resetVector (lo8 base)).writeByte (Config.resetVector + 1) (hi8 base))
  else .refused .imageDoesNotFit

/-- What a run reports to the host (70_reset_and_hazards.md R277). -/
inductive RunResult where
  | success
  | decodeFault (op : Byte) (addr : Word)
  | hookAbort
deriving DecidableEq, Repr

/-- The result a run status stands for; none while the machine is running (70_reset_and_hazards.md R277). -/
def RunStatus.result : RunStatus → Option RunResult
  | .running => none
  | .halted => some .success
  | .faulted op addr => some (.decodeFault op addr)
  | .aborted => some .hookAbort

/-- The run loop (70_reset_and_hazards.md R276), at most `fuel` steps of it: it goes on while the machine is running. -/
def State.runFor (s : State) : Nat → State
  | 0 => s
  | fuel + 1 =>
    match s.run with
    | .running =>
      match step s with
      | .next t => t.runFor fuel
      | .fault _ => s
      | .refused _ => s
    | .halted => s
    | .faulted _ _ => s
    | .aborted => s

end Sys2Proof.Machine
end

