-- ==== Sys2Proof/WellFormed.lean ====
section
/-! DEFINITION. Which instructions are well formed: the legality matrix (30_encoding.md R89). A mnemonic and mode
pair that has no row in the table has no encoding. The operand bytes themselves have no illegal values
(rule R85), so the matrix and the length are the only checks there are. -/

namespace Sys2Proof

/-- The modes each mnemonic has: the rows of the legality matrix (30_encoding.md R89). -/
def modesOf : Mnemonic → List Mode
  | .adc => [.imm, .zp, .zpx, .abs, .abx, .aby, .izx, .izy]
  | .and => [.imm, .zp, .zpx, .abs, .abx, .aby, .izx, .izy]
  | .asl => [.acc, .zp, .zpx, .abs, .abx]
  | .bcc => [.rel]
  | .bcs => [.rel]
  | .beq => [.rel]
  | .bit => [.zp, .abs]
  | .bmi => [.rel]
  | .bne => [.rel]
  | .bpl => [.rel]
  | .brk => [.imp]
  | .bvc => [.rel]
  | .bvs => [.rel]
  | .clc => [.imp]
  | .cld => [.imp]
  | .cli => [.imp]
  | .clv => [.imp]
  | .cmp => [.imm, .zp, .zpx, .abs, .abx, .aby, .izx, .izy]
  | .cpx => [.imm, .zp, .abs]
  | .cpy => [.imm, .zp, .abs]
  | .dec => [.zp, .zpx, .abs, .abx]
  | .dex => [.imp]
  | .dey => [.imp]
  | .eor => [.imm, .zp, .zpx, .abs, .abx, .aby, .izx, .izy]
  | .inc => [.zp, .zpx, .abs, .abx]
  | .inx => [.imp]
  | .iny => [.imp]
  | .jmp => [.abs, .ind]
  | .jsr => [.abs]
  | .lda => [.imm, .zp, .zpx, .abs, .abx, .aby, .izx, .izy]
  | .ldx => [.imm, .zp, .zpy, .abs, .aby]
  | .ldy => [.imm, .zp, .zpx, .abs, .abx]
  | .lsr => [.acc, .zp, .zpx, .abs, .abx]
  | .nop => [.imp]
  | .ora => [.imm, .zp, .zpx, .abs, .abx, .aby, .izx, .izy]
  | .pha => [.imp]
  | .php => [.imp]
  | .pla => [.imp]
  | .plp => [.imp]
  | .rol => [.acc, .zp, .zpx, .abs, .abx]
  | .ror => [.acc, .zp, .zpx, .abs, .abx]
  | .rti => [.imp]
  | .rts => [.imp]
  | .sbc => [.imm, .zp, .zpx, .abs, .abx, .aby, .izx, .izy]
  | .sec => [.imp]
  | .sed => [.imp]
  | .sei => [.imp]
  | .sta => [.zp, .zpx, .abs, .abx, .aby, .izx, .izy]
  | .stx => [.zp, .zpy, .abs]
  | .sty => [.zp, .zpx, .abs]
  | .tax => [.imp]
  | .tay => [.imp]
  | .tsx => [.imp]
  | .txa => [.imp]
  | .txs => [.imp]
  | .tya => [.imp]

/-- Whether a mnemonic and mode pair has an encoding (30_encoding.md R89). -/
def legalForm (mn : Mnemonic) (md : Mode) : Bool := (modesOf mn).contains md

/-- Whether a mode is one of the nine the resolver is asked about (40_engine_and_addressing.md R104, R119). -/
def Mode.resolvable : Mode → Bool
  | .imm | .zp | .zpx | .zpy | .abs | .abx | .aby | .izx | .izy => true
  | .imp | .acc | .rel | .ind => false

/-- The checks on a form: the mnemonic has the mode (30_encoding.md R89), and there is an addressing form exactly when
the mode is a resolvable one, and then it is of that mode. -/
def formOk (mn : Mnemonic) (md : Mode) (form : Option Addressing) : Bool :=
  legalForm mn md &&
    match form with
    | some a => a.mode == md && md.resolvable
    | none => !md.resolvable

/-- Whether an instruction is well formed. Every instruction is (Laws/PerInstr.lean): the constructors are the rows of
the table, and no operand byte is illegal. -/
def Instr.wellFormed (i : Instr) : Bool := formOk i.mnemonic i.mode i.addressing

/-- The 105 illegal opcode bytes, as the rule lists them (30_encoding.md R85). -/
def illegalBytes : List Byte :=
  [0x02#8, 0x03#8, 0x04#8, 0x07#8, 0x0B#8, 0x0C#8, 0x0F#8, 0x12#8, 0x13#8, 0x14#8, 0x17#8, 0x1A#8, 0x1B#8, 0x1C#8, 0x1F#8,
    0x22#8, 0x23#8, 0x27#8, 0x2B#8, 0x2F#8, 0x32#8, 0x33#8, 0x34#8, 0x37#8, 0x3A#8, 0x3B#8, 0x3C#8, 0x3F#8, 0x42#8, 0x43#8,
    0x44#8, 0x47#8, 0x4B#8, 0x4F#8, 0x52#8, 0x53#8, 0x54#8, 0x57#8, 0x5A#8, 0x5B#8, 0x5C#8, 0x5F#8, 0x62#8, 0x63#8, 0x64#8,
    0x67#8, 0x6B#8, 0x6F#8, 0x72#8, 0x73#8, 0x74#8, 0x77#8, 0x7A#8, 0x7B#8, 0x7C#8, 0x7F#8, 0x80#8, 0x82#8, 0x83#8, 0x87#8,
    0x89#8, 0x8B#8, 0x8F#8, 0x92#8, 0x93#8, 0x97#8, 0x9B#8, 0x9C#8, 0x9E#8, 0x9F#8, 0xA3#8, 0xA7#8, 0xAB#8, 0xAF#8, 0xB2#8,
    0xB3#8, 0xB7#8, 0xBB#8, 0xBF#8, 0xC2#8, 0xC3#8, 0xC7#8, 0xCB#8, 0xCF#8, 0xD2#8, 0xD3#8, 0xD4#8, 0xD7#8, 0xDA#8, 0xDB#8,
    0xDC#8, 0xDF#8, 0xE2#8, 0xE3#8, 0xE7#8, 0xEB#8, 0xEF#8, 0xF2#8, 0xF3#8, 0xF4#8, 0xF7#8, 0xFA#8, 0xFB#8, 0xFC#8, 0xFF#8]

end Sys2Proof
end

