-- ==== Sys2Proof/Safety.lean ====
section
/-! DEFINITION. What counts as a safe run, the invariant of the machine, and the terms the statements use: what it means
that an instruction wrote a register, a flag or a byte of memory AND LEFT EVERYTHING ELSE AS IT WAS. Each such
predicate on an outcome says that the outcome is a next state equal to the one before it but for the fields it
names, so it is a frame as well as a result. -/

namespace Sys2Proof.Machine

/-! ## Runs -/

/-- A run status that has no step (10_state.md R38). -/
def RunStatus.terminal : RunStatus → Bool
  | .running => false
  | .halted => true
  | .faulted _ _ => true
  | .aborted => true

/-- No failure has been reported: the machine is running, or a BRK stopped it (70_reset_and_hazards.md R277). -/
def RunStatus.safe : RunStatus → Bool
  | .running => true
  | .halted => true
  | .faulted _ _ => false
  | .aborted => false

/-- A state from which no step, of any number of them, reports a failure. -/
def SafeRun (s : State) : Prop := ∀ n, (s.runFor n).run.safe = true

/-- The run status tells the truth about memory: a machine that stopped at an illegal byte stands at that byte, and one
that halted stands just past a BRK opcode (10_state.md R38; 92_eei_decisions.md D11, D12). -/
def StatusTruthful (s : State) : Prop :=
  match s.run with
  | .running => True
  | .halted => s.readByte (s.pc - 1) = 0x00
  | .faulted op addr => op ∈ illegalBytes ∧ s.pc = addr ∧ s.readByte addr = op
  | .aborted => True

/-- The invariant: memory is in its canonical form, and the run status tells the truth. -/
def Inv (s : State) : Prop := Memory.wf s.mem = true ∧ StatusTruthful s

/-- A hook that gives back a memory in canonical form when it was given one. -/
def HookKeepsMemory (h : Hook) : Prop := ∀ v, Memory.wf v.mem = true → Memory.wf (h v).1.mem = true

/-! ## Encoding -/

/-- The bytes are those of the instruction: the decoder reads it from them, and nothing is left. -/
def Encodes (bytes : List Byte) (i : Instr) : Prop := decode bytes = .ok i []

/-! ## Flags -/

/-- Every bit of `P` but those of the list is as it was. -/
def SameBitsExcept (ks : List Nat) (p p' : Byte) : Prop := ∀ k, k ∉ ks → p'.getLsbD k = p.getLsbD k

/-- `P` after `SetZN(v)` (10_state.md R35): Z is `v = 0`, N is bit 7 of `v`, the rest is as it was. -/
def ZNFrom (v p p' : Byte) : Prop :=
  p'.getLsbD 1 = decide (v = 0) ∧ p'.getLsbD 7 = v.getLsbD 7 ∧ SameBitsExcept [1, 7] p p'

/-- `P` after an operation that writes C, Z, N: C is `c`, Z and N are those of `v`, the rest is as it was. -/
def CZNFrom (c : Bool) (v p p' : Byte) : Prop :=
  p'.getLsbD 0 = c ∧ p'.getLsbD 1 = decide (v = 0) ∧ p'.getLsbD 7 = v.getLsbD 7 ∧ SameBitsExcept [0, 1, 7] p p'

/-- The bits of `P` each mnemonic writes: the flag summary (10_state.md R34). -/
def flagsWritten : Mnemonic → List Nat
  | .adc | .sbc => [7, 6, 1, 0]
  | .and | .ora | .eor => [7, 1]
  | .asl | .lsr | .rol | .ror => [7, 1, 0]
  | .bit => [7, 6, 1]
  | .cmp | .cpx | .cpy => [7, 1, 0]
  | .inc | .dec | .inx | .iny | .dex | .dey => [7, 1]
  | .lda | .ldx | .ldy | .pla | .tax | .tay | .txa | .tya | .tsx => [7, 1]
  | .clc | .sec => [0]
  | .cld | .sed => [3]
  | .cli | .sei => [2]
  | .clv => [6]
  | .plp | .rti => [7, 6, 5, 4, 3, 2, 1, 0]
  | .sta | .stx | .sty | .txs | .pha | .php | .nop | .brk | .jmp | .jsr | .rts => []
  | .bcc | .bcs | .beq | .bne | .bmi | .bpl | .bvc | .bvs => []

/-- The state with one bit of `P` the other way. -/
def State.flipFlag (k : Nat) (s : State) : State := { s with p := s.p ^^^ (1#8 <<< k) }

/-! ## Memory -/

/-- Every byte of memory outside the listed addresses reads as before. -/
def SameMemoryOutside (as : List Word) (m m' : Memory) : Prop :=
  ∀ a : Word, a ∉ as → Memory.read m' a.toNat = Memory.read m a.toNat

/-- One byte was stored at an address, and every other byte reads as before. -/
def StoredByte (ea : Word) (v : Byte) (m m' : Memory) : Prop :=
  Memory.read m' ea.toNat = v ∧ SameMemoryOutside [ea] m m'

/-- The addresses an instruction stores to (20_memory.md R54): the effective address of a store or of a memory
read-modify-write, the stack bytes of a push; none for every other instruction. -/
def storeAddresses (i : Instr) (s : State) : List Word :=
  match i.mnemonic with
  | .sta | .stx | .sty | .inc | .dec | .asl | .lsr | .rol | .ror =>
    match i.addressing with
    | some m => [resolve m s]
    | none => []
  | .pha | .php => [stackAddr s.sp]
  | .jsr => [stackAddr s.sp, stackAddr (s.sp - 1)]
  | .lda | .ldx | .ldy | .adc | .sbc | .cmp | .cpx | .cpy | .and | .ora | .eor | .bit => []
  | .inx | .iny | .dex | .dey | .bcc | .bcs | .beq | .bne | .bmi | .bpl | .bvc | .bvs => []
  | .jmp | .rts | .rti | .clc | .sec | .cld | .sed | .cli | .sei | .clv => []
  | .tax | .txa | .tay | .tya | .tsx | .txs | .pla | .plp | .nop | .brk => []

/-! ## Outcomes of an instruction: what it wrote, all else unchanged -/

/-- `A` received `v` with Z and N from it, `PC` advanced by `len`, all else unchanged. -/
def WritesA (s : State) (v : Byte) (len : Word) (o : Host.Outcome State Fault Refusal) : Prop :=
  ∃ p', ZNFrom v s.p p' ∧ o = .next { s with a := v, p := p', pc := s.pc + len }

/-- `X` received `v` with Z and N from it, `PC` advanced by `len`, all else unchanged. -/
def WritesX (s : State) (v : Byte) (len : Word) (o : Host.Outcome State Fault Refusal) : Prop :=
  ∃ p', ZNFrom v s.p p' ∧ o = .next { s with x := v, p := p', pc := s.pc + len }

/-- `Y` received `v` with Z and N from it, `PC` advanced by `len`, all else unchanged. -/
def WritesY (s : State) (v : Byte) (len : Word) (o : Host.Outcome State Fault Refusal) : Prop :=
  ∃ p', ZNFrom v s.p p' ∧ o = .next { s with y := v, p := p', pc := s.pc + len }

/-- The byte `v` was stored at `ea`, `PC` advanced by `len`, all else unchanged. -/
def Stores (s : State) (ea : Word) (v : Byte) (len : Word) (o : Host.Outcome State Fault Refusal) : Prop :=
  ∃ m', StoredByte ea v s.mem m' ∧ o = .next { s with mem := m', pc := s.pc + len }

/-- `A` received the sum of `a`, the addend and the carry (42_arithmetic_compare.md R151), with C, V, Z, N from it, all
else unchanged. -/
def AddsToA (s : State) (addend : Byte) (len : Word) (o : Host.Outcome State Fault Refusal) : Prop :=
  let sum := s.a.toNat + addend.toNat + (s.p.getLsbD 0).toNat
  let r := BitVec.ofNat 8 (sum % 256)
  ∃ p', p'.getLsbD 0 = decide (0xFF < sum) ∧ p'.getLsbD 1 = decide (r = 0) ∧ p'.getLsbD 7 = r.getLsbD 7 ∧
    p'.getLsbD 6 = decide ((r ^^^ addend) &&& (r ^^^ s.a) &&& 0x80 ≠ 0) ∧ SameBitsExcept [0, 1, 6, 7] s.p p' ∧
    o = .next { s with a := r, p := p', pc := s.pc + len }

/-- C, Z, N from `reg` against `m` (42_arithmetic_compare.md R153), `PC` advanced by `len`, all else unchanged. -/
def Compares (s : State) (reg m : Byte) (len : Word) (o : Host.Outcome State Fault Refusal) : Prop :=
  ∃ p', p'.getLsbD 0 = decide (m.toNat ≤ reg.toNat) ∧ p'.getLsbD 1 = decide (reg = m) ∧
    p'.getLsbD 7 = (BitVec.ofNat 8 ((256 + reg.toNat - m.toNat) % 256)).getLsbD 7 ∧ SameBitsExcept [0, 1, 7] s.p p' ∧
    o = .next { s with p := p', pc := s.pc + len }

/-- Z, V, N of a bit test of `m` (43_logic_bit.md R163), `PC` advanced by `len`, all else unchanged. -/
def TestsBits (s : State) (m : Byte) (len : Word) (o : Host.Outcome State Fault Refusal) : Prop :=
  ∃ p', p'.getLsbD 1 = decide (s.a &&& m = 0) ∧ p'.getLsbD 6 = m.getLsbD 6 ∧ p'.getLsbD 7 = m.getLsbD 7 ∧
    SameBitsExcept [1, 6, 7] s.p p' ∧ o = .next { s with p := p', pc := s.pc + len }

/-- `A` received `r`, C is `c`, Z and N from `r`, `PC` advanced by one, all else unchanged. -/
def ShiftsA (s : State) (r : Byte) (c : Bool) (o : Host.Outcome State Fault Refusal) : Prop :=
  ∃ p', CZNFrom c r s.p p' ∧ o = .next { s with a := r, p := p', pc := s.pc + 1 }

/-- The byte `r` was stored at `ea`, C is `c`, Z and N from `r`, `PC` advanced by `len`, all else unchanged. -/
def ShiftsM (s : State) (ea : Word) (r : Byte) (c : Bool) (len : Word) (o : Host.Outcome State Fault Refusal) : Prop :=
  ∃ p' m', CZNFrom c r s.p p' ∧ StoredByte ea r s.mem m' ∧ o = .next { s with p := p', mem := m', pc := s.pc + len }

/-- The byte `r` was stored at `ea`, Z and N from `r`, `PC` advanced by `len`, all else unchanged. -/
def StoresWithZN (s : State) (ea : Word) (r : Byte) (len : Word) (o : Host.Outcome State Fault Refusal) : Prop :=
  ∃ p' m', ZNFrom r s.p p' ∧ StoredByte ea r s.mem m' ∧ o = .next { s with p := p', mem := m', pc := s.pc + len }

/-- Bit `k` of `P` is `b`, `PC` advanced by one, all else unchanged, the other bits of `P` too. -/
def WritesFlag (s : State) (k : Nat) (b : Bool) (o : Host.Outcome State Fault Refusal) : Prop :=
  ∃ p', p'.getLsbD k = b ∧ SameBitsExcept [k] s.p p' ∧ o = .next { s with p := p', pc := s.pc + 1 }

/-- The byte `v` was stored where `SP` pointed, `SP` went down by one modulo 256, `PC` advanced by one, all else
unchanged. -/
def Pushes (s : State) (v : Byte) (o : Host.Outcome State Fault Refusal) : Prop :=
  ∃ m', StoredByte (stackAddr s.sp) v s.mem m' ∧ o = .next { s with mem := m', sp := s.sp - 1, pc := s.pc + 1 }

/-- `PC` is the branch target when the branch is taken, else the next instruction (46_control_flow.md R190), all else
unchanged. -/
def Branches (s : State) (taken : Bool) (d : Byte) (o : Host.Outcome State Fault Refusal) : Prop :=
  ∃ w : Word, (taken = true → (w.toNat : Int) = ((s.pc.toNat : Int) + 2 + d.toInt) % 65536) ∧
    (taken = false → w = s.pc + 2) ∧ o = .next { s with pc := w }

end Sys2Proof.Machine
end

