-- ==== Sys2Proof/Certificates/Slice0/Obligations.lean ====
section
/-! DEFINITION. The statements for the provers. The terms they use are in Safety.lean; `Writes…`, `Stores`, `Adds…` and
the like say that an outcome is a next state equal to the state before but for the fields they name, so each of
these statements is at once a completion, a result and a frame. `Encodes` gives each instruction its bytes. -/

open Sys2Proof Sys2Proof.Machine

/-! ## Encoding (30_encoding.md) -/

/-- R80, R81, R83, R84: the bytes of an instruction decode to that instruction, whatever follows them. -/
def Obligations.DecodingAnEncodedInstructionGivesItBack : Prop :=
  ∀ (i : Instr) (rest : List Byte), decode (encode i ++ rest) = .ok i rest

/-- R80, R81, R83: bytes that decode to an instruction are its encoding: no bit is dropped or read twice. -/
def Obligations.DecodedBytesAreTheEncoding : Prop :=
  ∀ (bs : List Byte) (i : Instr) (rest : List Byte), decode bs = .ok i rest → bs = encode i ++ rest

/-- R85: the 105 bytes the rule lists, and no others, are decode failures; every operand byte of the others is accepted. -/
def Obligations.ListedBytesAndNoOthersAreIllegal : Prop :=
  illegalBytes.length = 105 ∧ illegalBytes.Nodup ∧
  (∀ (op : Byte) (rest : List Byte), op ∈ illegalBytes → decode (op :: rest) = .illegalOpcode op) ∧
  (∀ (op b1 b2 : Byte) (rest : List Byte), op ∉ illegalBytes → ∃ i r, decode (op :: b1 :: b2 :: rest) = .ok i r)

/-- R80, R86: the opcode byte alone selects mnemonic, mode and length; the length is the mode's. -/
def Obligations.OpcodeByteAloneSelectsTheInstruction : Prop :=
  (∀ (op : Byte) (bs cs : List Byte) (i j : Instr) (r q : List Byte),
    decode (op :: bs) = .ok i r → decode (op :: cs) = .ok j q → i.mnemonic = j.mnemonic ∧ i.mode = j.mode) ∧
  (∀ (bs : List Byte) (i : Instr) (r : List Byte), decode bs = .ok i r → bs.length = i.length + r.length)

/-- R84: words written out from the table decode to their instructions. -/
def Obligations.TableWordsDecodeToTheirInstructions : Prop :=
  decode [0xA9, 0x05] = .ok (.ldaImm 0x05) [] ∧ decode [0xBD, 0x34, 0x12] = .ok (.ldaAbx 0x1234) [] ∧
  decode [0x96, 0x10] = .ok (.stxZpy 0x10) [] ∧ decode [0x71, 0x40] = .ok (.adcIzy 0x40) [] ∧
  decode [0x2C, 0x00, 0x03] = .ok (.bitAbs 0x0300) [] ∧ decode [0x6A] = .ok .rorAcc [] ∧
  decode [0xDE, 0xFF, 0x01] = .ok (.decAbx 0x01FF) [] ∧ decode [0xD0, 0xFB] = .ok (.bne 0xFB) [] ∧
  decode [0x6C, 0xFF, 0x30] = .ok (.jmpInd 0x30FF) [] ∧ decode [0x00] = .ok .brk []

/-- R89, R119: a mnemonic and mode pair has an instruction exactly when the legality matrix has it, and the resolver is
asked about an instruction exactly when its mode is not IMP, ACC, REL or IND. -/
def Obligations.LegalFormsAreTheInstructionsThatExist : Prop :=
  (∀ mn md, legalForm mn md = true ↔ ∃ i : Instr, i.mnemonic = mn ∧ i.mode = md) ∧
  (∀ i : Instr, i.addressing = none ↔ i.mode ∈ [Mode.imp, .acc, .rel, .ind]) ∧
  (∀ (i : Instr) (m : Addressing), i.addressing = some m → m.mode = i.mode)

/-! ## The engine (40_engine_and_addressing.md, 60_exceptions.md, 70_reset_and_hazards.md) -/

/-- R101, R103, R108: when the bytes at `PC` decode to an instruction and no answer of the hook is pending, the step is
that instruction's meaning at that state, with `PC` still at the opcode. -/
def Obligations.StepRunsTheDecodedInstruction : Prop :=
  (∀ s : State, s.fetchBytes = [s.readByte s.pc, s.readByte (s.pc + 1), s.readByte (s.pc + 2)]) ∧
  (∀ (s : State) (i : Instr) (rest : List Byte), s.run = .running → s.hookCalls = [] →
    decode s.fetchBytes = .ok i rest → step s = exec i s)

/-- R102, R242, R245, with the choice of 92_eei_decisions.md D13 that an aborting hook's writes stay: the hook is
consulted first; if it aborts, the step ends with what the hook returned and the status `aborted`, whatever byte is
pending; if not, the step goes on from what it returned as a step without a hook. -/
def Obligations.HookIsConsultedBeforeTheFetch : Prop :=
  ∀ (h : Hook) (s : State) (v : HookView), s.run = .running →
    (h s.view = (v, .abort) → stepWith h s = .next { s.withView v with run := .aborted }) ∧
    (h s.view = (v, .goOn) → stepWith h s = stepWith defaultHook (s.withView v))

/-- R252, R253, R254, with the model's choice of log entry 3: a pending answer is the hook of the step that reads it,
and with none pending the hook is the no-op. -/
def Obligations.QueuedAnswersActAsTheHook : Prop :=
  (∀ s : State, s.hookCalls = [] → step s = stepWith defaultHook s) ∧
  (∀ (s : State) (c : HookCall) (rest : List HookCall), s.hookCalls = c :: rest →
    step s = stepWith c.toHook { s with hookCalls := rest }) ∧
  (∀ s : State, s.withView (defaultHook s.view).1 = s ∧ (defaultHook s.view).2 = .goOn)

/-- R252, R253, with the model's choice of log entry 3: nothing a hook can do to a state is lost by holding its answers
as data. For every hook that keeps memory canonical and every state, some pending answer makes the step do what that
hook makes it do. -/
def Obligations.EveryHookStepIsSomeQueuedAnswer : Prop :=
  ∀ (h : Hook) (s : State), HookKeepsMemory h → Memory.wf s.mem = true →
    ∃ c : HookCall, step { s with hookCalls := c :: s.hookCalls } = stepWith h s

/-- R241, with the choice of 92_eei_decisions.md D12 that `PC` stays and the status records the byte and its address:
after the hook's writes, an illegal byte at `PC` stops the machine and changes nothing else. -/
def Obligations.IllegalByteStopsTheMachineThere : Prop :=
  ∀ (h : Hook) (s : State) (v : HookView), s.run = .running → h s.view = (v, .goOn) →
    (s.withView v).readByte v.pc ∈ illegalBytes →
    stepWith h s = .next { s.withView v with run := .faulted ((s.withView v).readByte v.pc) v.pc }

/-- R107, R276, R277, R278: a terminal status has no step, whatever the hook; a run goes on while the machine is running,
and once it has stopped it stays as it is; what each status reports to the host. The model's part: a step that does not
exist is answered by a fault (log entry 1, DEDUCED), a run is a number of steps (log entry 19, DESIGN CHOICE); the pair
that `faulted` records and `aborted` as a status of its own are the choices of 92_eei_decisions.md D12 and D13 (log
entry 11). -/
def Obligations.TerminalStatusHasNoStepAndReportsItsResult : Prop :=
  (∀ (h : Hook) (s : State), s.run.terminal = true → ∃ r, stepWith h s = .fault r ∧ step s = .fault r) ∧
  (∀ (s t : State) (n : Nat), s.run = .running → step s = .next t → s.runFor (n + 1) = t.runFor n) ∧
  (∀ (s : State) (n k : Nat), (s.runFor n).run.terminal = true → s.runFor (n + k) = s.runFor n) ∧
  RunStatus.running.result = none ∧ RunStatus.halted.result = some .success ∧
  (∀ op addr, (RunStatus.faulted op addr).result = some (.decodeFault op addr)) ∧
  RunStatus.aborted.result = some .hookAbort

/-- R108: a step of a running machine always answers a next state, whatever the hook and the memory. That a decode fault
and an aborting hook are next states is log entry 2 (DEDUCED); that the step takes one pending answer of the hook away
is the model's own choice, log entry 3 (DESIGN CHOICE). -/
def Obligations.EveryStepOfARunningMachineCompletes : Prop :=
  (∀ (h : Hook) (s : State), s.run = .running → ∃ t, stepWith h s = .next t) ∧
  (∀ s : State, s.run = .running → ∃ t, step s = .next t ∧ t.hookCalls = s.hookCalls.tail)

/-- R240, R246, R247: every instruction, in every state, answers a next state; only BRK changes the run status. -/
def Obligations.EveryInstructionCompletes : Prop :=
  ∀ (i : Instr) (s : State), ∃ t, exec i s = .next t ∧ t.hookCalls = s.hookCalls ∧
    (i = .brk → t.run = .halted) ∧ (i ≠ .brk → t.run = s.run)

/-- R106: every instruction that is not a control transfer leaves `PC` at the opcode's address plus its length, BRK too
(that BRK has length 1 and leaves `PC` there is the choice of 92_eei_decisions.md D11). -/
def Obligations.ProgramCounterAdvancesByTheLength : Prop :=
  ∀ (i : Instr) (s : State),
    i.mnemonic ∉ [Mnemonic.bcc, .bcs, .beq, .bne, .bmi, .bpl, .bvc, .bvs, .jmp, .jsr, .rts, .rti] →
    ∃ t, exec i s = .next t ∧ t.pc.toNat = (s.pc.toNat + i.length) % 65536

/-- R38: how each status is entered by a step of a running machine: it stays running, or a BRK opcode was fetched, or an
illegal byte was, or the hook aborted. (That the status records the byte and its address is the choice of
92_eei_decisions.md D12.) -/
def Obligations.StatusChangesOnlyForItsCause : Prop :=
  ∀ (h : Hook) (s t : State), s.run = .running → stepWith h s = .next t →
    let s1 := s.withView (h s.view).1
    match t.run with
    | .running => (h s.view).2 = .goOn ∧ s1.readByte s1.pc ≠ 0x00 ∧ s1.readByte s1.pc ∉ illegalBytes
    | .halted => (h s.view).2 = .goOn ∧ s1.readByte s1.pc = 0x00
    | .faulted op addr => (h s.view).2 = .goOn ∧ s1.readByte s1.pc = op ∧ s1.pc = addr ∧ op ∈ illegalBytes
    | .aborted => (h s.view).2 = .abort

/-! ## Reset, load, memory, stack (10_state.md, 20_memory.md, 70_reset_and_hazards.md) -/

/-- R271, R40, with the choices of 92_eei_decisions.md D9 (`Y` is not written) and D10 (the status becomes running):
reset in full. -/
def Obligations.ResetSetsTheListedRegistersOnly : Prop :=
  ∀ s : State, s.assertReset =
    { s with a := 0x00, x := 0x00, p := 0x00, sp := 0xFD, run := .running,
             pc := mk16 (s.readByte 0xFFFD) (s.readByte 0xFFFC) }

/-- R39, R40: the state after reset is the first reset after power-on; its values. -/
def Obligations.ResetStateIsTheFirstResetAfterPowerOn : Prop :=
  State.reset = State.powerOn.assertReset ∧
  State.reset.a = 0x00 ∧ State.reset.x = 0x00 ∧ State.reset.y = 0x00 ∧ State.reset.sp = 0xFD ∧
  State.reset.p = 0x00 ∧ State.reset.run = .running ∧ State.reset.pc = 0x0000 ∧
  (∀ a : Word, State.reset.readByte a = 0x00)

/-- R273: a load that fits copies the image, then writes the reset vector, and changes nothing else; one that does not
fit is refused (92_eei_decisions.md D15). -/
def Obligations.LoadWritesTheImageAndTheResetVector : Prop :=
  (∀ (s : State) (base : Word) (prog : List Byte), base.toNat + prog.length ≤ 65536 →
    (∀ k, k < prog.length → base.toNat + k ≠ 0xFFFC ∧ base.toNat + k ≠ 0xFFFD) →
    ∃ m', s.load base prog = .next { s with mem := m' } ∧
      (∀ (k : Nat) (hk : k < prog.length), Memory.read m' (base.toNat + k) = prog[k]) ∧
      Memory.read m' 0xFFFC = lo8 base ∧ Memory.read m' 0xFFFD = hi8 base ∧
      (∀ a : Word, (a.toNat < base.toNat ∨ base.toNat + prog.length ≤ a.toNat) → a ≠ 0xFFFC → a ≠ 0xFFFD →
        Memory.read m' a.toNat = s.readByte a)) ∧
  (∀ (s : State) (base : Word) (prog : List Byte),
    (65536 < base.toNat + prog.length ∨
      ∃ k, k < prog.length ∧ (base.toNat + k = 0xFFFC ∨ base.toNat + k = 0xFFFD)) →
    s.load base prog = .refused .imageDoesNotFit)

/-- R274: a fresh processor, after power-on, a load that fits and a reset. -/
def Obligations.FreshProcessorStartsAtTheLoadBase : Prop :=
  ∀ (base : Word) (prog : List Byte), base.toNat + prog.length ≤ 65536 →
    (∀ k, k < prog.length → base.toNat + k ≠ 0xFFFC ∧ base.toNat + k ≠ 0xFFFD) →
    ∃ t, State.powerOn.load base prog = .next t ∧
      t.assertReset = { State.reset with pc := base, mem := t.mem } ∧
      (∀ (k : Nat) (hk : k < prog.length), Memory.read t.mem (base.toNat + k) = prog[k])

/-- R50, R51, R55: a byte written is read back, every other byte is as it was, and nothing else changes. -/
def Obligations.WrittenByteReadsBackAndNothingElseChanges : Prop :=
  ∀ (s : State) (a b : Word) (v : Byte),
    (s.writeByte a v).readByte a = v ∧ (b ≠ a → (s.writeByte a v).readByte b = s.readByte b) ∧
    s.writeByte a v = { s with mem := (s.writeByte a v).mem }

/-- Log entry 13: two memories in canonical form that read alike at every address are the same data. -/
def Obligations.CanonicalMemoriesWithEqualBytesAreEqual : Prop :=
  ∀ m m' : Memory, Memory.wf m = true → Memory.wf m' = true →
    (∀ a : Word, Memory.read m a.toNat = Memory.read m' a.toNat) → m = m'

/-- R52: a 16-bit quantity is little-endian; that the second byte of a read at 0xFFFF is at 0x0000 is the choice of
92_eei_decisions.md D7. -/
def Obligations.WordReadIsLittleEndianAndWraps : Prop :=
  (∀ (s : State) (a : Word), (s.readWord a).toNat = 256 * (s.readByte (a + 1)).toNat + (s.readByte a).toNat) ∧
  (∀ s : State, (s.readWord 0xFFFF).toNat = 256 * (s.readByte 0x0000).toNat + (s.readByte 0xFFFF).toNat)

/-- R58, R59: a push stores at the stack pointer and then decrements it, a pull increments it and then reads; a pull after a
push gives the byte and the stack pointer back, which R59 marks as derived. That the page is 0x01 is the choice of
92_eei_decisions.md D8 (R24; log entry 8). -/
def Obligations.PushStoresThenDecrementsAndPullUndoesIt : Prop :=
  (∀ sp : Byte, (stackAddr sp).toNat = 0x0100 + sp.toNat) ∧
  (∀ (s : State) (v : Byte), ∃ m', StoredByte (stackAddr s.sp) v s.mem m' ∧
    s.push8 v = { s with mem := m', sp := s.sp - 1 }) ∧
  (∀ s : State, s.pull8 = (s.readByte (stackAddr (s.sp + 1)), { s with sp := s.sp + 1 })) ∧
  (∀ (s : State) (v : Byte), (s.push8 v).pull8 = (v, { s with mem := (s.push8 v).mem }))

/-- R60, R61: a word is pushed high byte first and pulled low byte first; the pair comes back, also across the wrap. -/
def Obligations.PushedWordIsPulledBack : Prop :=
  (∀ (s : State) (w : Word), (s.push16 w).sp = s.sp - 2 ∧ (s.push16 w).readByte (stackAddr s.sp) = hi8 w ∧
    (s.push16 w).readByte (stackAddr (s.sp - 1)) = lo8 w ∧
    SameMemoryOutside [stackAddr s.sp, stackAddr (s.sp - 1)] s.mem (s.push16 w).mem ∧
    s.push16 w = { s with mem := (s.push16 w).mem, sp := s.sp - 2 }) ∧
  (∀ s : State, s.pull16 = (mk16 (s.readByte (stackAddr (s.sp + 2))) (s.readByte (stackAddr (s.sp + 1))),
    { s with sp := s.sp + 2 })) ∧
  (∀ (s : State) (w : Word), (s.push16 w).pull16 = (w, { s with mem := (s.push16 w).mem }))

/-! ## Addressing (40_engine_and_addressing.md) -/

/-- R110 to R116: the effective address and the length of the modes that read no pointer; the immediate operand is the
byte itself, and no store has that mode; only LDX and STX have zero-page indexed by Y. That the address of an immediate
operand wraps at the top of memory is the choice of 92_eei_decisions.md D7 (log entry 7). -/
def Obligations.DirectModesGiveTheirEffectiveAddress : Prop :=
  ∀ (s : State) (b : Byte) (w : Word),
    (resolve (.imm b) s).toNat = (s.pc.toNat + 1) % 65536 ∧
    (resolve (.zp b) s).toNat = b.toNat ∧
    (resolve (.zpx b) s).toNat = (b.toNat + s.x.toNat) % 256 ∧
    (resolve (.zpy b) s).toNat = (b.toNat + s.y.toNat) % 256 ∧
    resolve (.abs w) s = w ∧
    (resolve (.abx w) s).toNat = (w.toNat + s.x.toNat) % 65536 ∧
    (resolve (.aby w) s).toNat = (w.toNat + s.y.toNat) % 65536 ∧
    operand (.imm b) s = b ∧
    (Mode.length .imm = 2 ∧ Mode.length .zp = 2 ∧ Mode.length .zpx = 2 ∧ Mode.length .zpy = 2 ∧
      Mode.length .abs = 3 ∧ Mode.length .abx = 3 ∧ Mode.length .aby = 3) ∧
    (∀ mn, legalForm mn .zpy = true ↔ mn = .ldx ∨ mn = .stx) ∧
    legalForm .sta .imm = false ∧ legalForm .stx .imm = false ∧ legalForm .sty .imm = false

/-- R117, R118: the effective address of the modes that read a zero-page pointer. That the pointer's second byte stays
in the zero page when the first is at 0x00FF is the choice of 92_eei_decisions.md D6. -/
def Obligations.PointerModesStayInTheZeroPage : Prop :=
  ∀ (s : State) (b : Byte),
    let p := (b.toNat + s.x.toNat) % 256
    (resolve (.izx b) s).toNat = 256 * (Memory.read s.mem ((p + 1) % 256)).toNat + (Memory.read s.mem p).toNat ∧
    (resolve (.izy b) s).toNat =
      (256 * (Memory.read s.mem ((b.toNat + 1) % 256)).toNat + (Memory.read s.mem b.toNat).toNat + s.y.toNat) % 65536

/-- R104, R110: the operand of an instruction fetched from memory is the byte at its effective address, in the immediate
mode too. -/
def Obligations.FetchedOperandIsTheByteAtTheEffectiveAddress : Prop :=
  ∀ (s : State) (i : Instr) (rest : List Byte) (m : Addressing),
    decode s.fetchBytes = .ok i rest → i.addressing = some m → operand m s = s.readByte (resolve m s)

/-! ## Load and store (41_load_store.md) -/

/-- R140: LDA in its eight forms. -/
def Obligations.LdaLoadsTheOperand : Prop :=
  ∀ (s : State) (b : Byte) (w : Word),
    WritesA s b 2 (exec (.ldaImm b) s) ∧
    WritesA s (s.readByte (resolve (.zp b) s)) 2 (exec (.ldaZp b) s) ∧
    WritesA s (s.readByte (resolve (.zpx b) s)) 2 (exec (.ldaZpx b) s) ∧
    WritesA s (s.readByte (resolve (.abs w) s)) 3 (exec (.ldaAbs w) s) ∧
    WritesA s (s.readByte (resolve (.abx w) s)) 3 (exec (.ldaAbx w) s) ∧
    WritesA s (s.readByte (resolve (.aby w) s)) 3 (exec (.ldaAby w) s) ∧
    WritesA s (s.readByte (resolve (.izx b) s)) 2 (exec (.ldaIzx b) s) ∧
    WritesA s (s.readByte (resolve (.izy b) s)) 2 (exec (.ldaIzy b) s) ∧
    (Encodes [0xA9, b] (.ldaImm b) ∧ Encodes [0xA5, b] (.ldaZp b) ∧ Encodes [0xB5, b] (.ldaZpx b) ∧
      Encodes [0xAD, lo8 w, hi8 w] (.ldaAbs w) ∧ Encodes [0xBD, lo8 w, hi8 w] (.ldaAbx w) ∧
      Encodes [0xB9, lo8 w, hi8 w] (.ldaAby w) ∧ Encodes [0xA1, b] (.ldaIzx b) ∧ Encodes [0xB1, b] (.ldaIzy b))

/-- R141, R142: LDX and LDY in their five forms each. -/
def Obligations.LdxAndLdyLoadTheOperand : Prop :=
  ∀ (s : State) (b : Byte) (w : Word),
    WritesX s b 2 (exec (.ldxImm b) s) ∧
    WritesX s (s.readByte (resolve (.zp b) s)) 2 (exec (.ldxZp b) s) ∧
    WritesX s (s.readByte (resolve (.zpy b) s)) 2 (exec (.ldxZpy b) s) ∧
    WritesX s (s.readByte (resolve (.abs w) s)) 3 (exec (.ldxAbs w) s) ∧
    WritesX s (s.readByte (resolve (.aby w) s)) 3 (exec (.ldxAby w) s) ∧
    WritesY s b 2 (exec (.ldyImm b) s) ∧
    WritesY s (s.readByte (resolve (.zp b) s)) 2 (exec (.ldyZp b) s) ∧
    WritesY s (s.readByte (resolve (.zpx b) s)) 2 (exec (.ldyZpx b) s) ∧
    WritesY s (s.readByte (resolve (.abs w) s)) 3 (exec (.ldyAbs w) s) ∧
    WritesY s (s.readByte (resolve (.abx w) s)) 3 (exec (.ldyAbx w) s) ∧
    (Encodes [0xA2, b] (.ldxImm b) ∧ Encodes [0xA6, b] (.ldxZp b) ∧ Encodes [0xB6, b] (.ldxZpy b) ∧
      Encodes [0xAE, lo8 w, hi8 w] (.ldxAbs w) ∧ Encodes [0xBE, lo8 w, hi8 w] (.ldxAby w) ∧
      Encodes [0xA0, b] (.ldyImm b) ∧ Encodes [0xA4, b] (.ldyZp b) ∧ Encodes [0xB4, b] (.ldyZpx b) ∧
      Encodes [0xAC, lo8 w, hi8 w] (.ldyAbs w) ∧ Encodes [0xBC, lo8 w, hi8 w] (.ldyAbx w))

/-- R143, R144, R145: STA, STX and STY in all their forms: the register's byte at the effective address, no flag. -/
def Obligations.StoresWriteTheEffectiveAddressOnly : Prop :=
  ∀ (s : State) (b : Byte) (w : Word),
    Stores s (resolve (.zp b) s) s.a 2 (exec (.staZp b) s) ∧
    Stores s (resolve (.zpx b) s) s.a 2 (exec (.staZpx b) s) ∧
    Stores s (resolve (.abs w) s) s.a 3 (exec (.staAbs w) s) ∧
    Stores s (resolve (.abx w) s) s.a 3 (exec (.staAbx w) s) ∧
    Stores s (resolve (.aby w) s) s.a 3 (exec (.staAby w) s) ∧
    Stores s (resolve (.izx b) s) s.a 2 (exec (.staIzx b) s) ∧
    Stores s (resolve (.izy b) s) s.a 2 (exec (.staIzy b) s) ∧
    Stores s (resolve (.zp b) s) s.x 2 (exec (.stxZp b) s) ∧
    Stores s (resolve (.zpy b) s) s.x 2 (exec (.stxZpy b) s) ∧
    Stores s (resolve (.abs w) s) s.x 3 (exec (.stxAbs w) s) ∧
    Stores s (resolve (.zp b) s) s.y 2 (exec (.styZp b) s) ∧
    Stores s (resolve (.zpx b) s) s.y 2 (exec (.styZpx b) s) ∧
    Stores s (resolve (.abs w) s) s.y 3 (exec (.styAbs w) s) ∧
    (Encodes [0x85, b] (.staZp b) ∧ Encodes [0x95, b] (.staZpx b) ∧ Encodes [0x8D, lo8 w, hi8 w] (.staAbs w) ∧
      Encodes [0x9D, lo8 w, hi8 w] (.staAbx w) ∧ Encodes [0x99, lo8 w, hi8 w] (.staAby w) ∧
      Encodes [0x81, b] (.staIzx b) ∧ Encodes [0x91, b] (.staIzy b) ∧ Encodes [0x86, b] (.stxZp b) ∧
      Encodes [0x96, b] (.stxZpy b) ∧ Encodes [0x8E, lo8 w, hi8 w] (.stxAbs w) ∧ Encodes [0x84, b] (.styZp b) ∧
      Encodes [0x94, b] (.styZpx b) ∧ Encodes [0x8C, lo8 w, hi8 w] (.styAbs w))

/-! ## Arithmetic and compare (42_arithmetic_compare.md) -/

/-- R151: ADC in its eight forms. That it is so whatever the Decimal flag is the choice of 92_eei_decisions.md D18 (R156;
log entry 12). -/
def Obligations.AdcAddsTheOperandAndTheCarry : Prop :=
  ∀ (s : State) (b : Byte) (w : Word),
    AddsToA s b 2 (exec (.adcImm b) s) ∧
    AddsToA s (s.readByte (resolve (.zp b) s)) 2 (exec (.adcZp b) s) ∧
    AddsToA s (s.readByte (resolve (.zpx b) s)) 2 (exec (.adcZpx b) s) ∧
    AddsToA s (s.readByte (resolve (.abs w) s)) 3 (exec (.adcAbs w) s) ∧
    AddsToA s (s.readByte (resolve (.abx w) s)) 3 (exec (.adcAbx w) s) ∧
    AddsToA s (s.readByte (resolve (.aby w) s)) 3 (exec (.adcAby w) s) ∧
    AddsToA s (s.readByte (resolve (.izx b) s)) 2 (exec (.adcIzx b) s) ∧
    AddsToA s (s.readByte (resolve (.izy b) s)) 2 (exec (.adcIzy b) s) ∧
    (Encodes [0x69, b] (.adcImm b) ∧ Encodes [0x65, b] (.adcZp b) ∧ Encodes [0x75, b] (.adcZpx b) ∧
      Encodes [0x6D, lo8 w, hi8 w] (.adcAbs w) ∧ Encodes [0x7D, lo8 w, hi8 w] (.adcAbx w) ∧
      Encodes [0x79, lo8 w, hi8 w] (.adcAby w) ∧ Encodes [0x61, b] (.adcIzx b) ∧ Encodes [0x71, b] (.adcIzy b))

/-- R152: SBC in its eight forms: the addend is the one's complement, 255 - m. That it is so whatever the Decimal flag is
the choice of 92_eei_decisions.md D18 (R156; log entry 12). -/
def Obligations.SbcAddsTheComplementAndTheCarry : Prop :=
  ∀ (s : State) (b : Byte) (w : Word),
    let n := fun m : Byte => BitVec.ofNat 8 (255 - m.toNat)
    AddsToA s (n b) 2 (exec (.sbcImm b) s) ∧
    AddsToA s (n (s.readByte (resolve (.zp b) s))) 2 (exec (.sbcZp b) s) ∧
    AddsToA s (n (s.readByte (resolve (.zpx b) s))) 2 (exec (.sbcZpx b) s) ∧
    AddsToA s (n (s.readByte (resolve (.abs w) s))) 3 (exec (.sbcAbs w) s) ∧
    AddsToA s (n (s.readByte (resolve (.abx w) s))) 3 (exec (.sbcAbx w) s) ∧
    AddsToA s (n (s.readByte (resolve (.aby w) s))) 3 (exec (.sbcAby w) s) ∧
    AddsToA s (n (s.readByte (resolve (.izx b) s))) 2 (exec (.sbcIzx b) s) ∧
    AddsToA s (n (s.readByte (resolve (.izy b) s))) 2 (exec (.sbcIzy b) s) ∧
    (Encodes [0xE9, b] (.sbcImm b) ∧ Encodes [0xE5, b] (.sbcZp b) ∧ Encodes [0xF5, b] (.sbcZpx b) ∧
      Encodes [0xED, lo8 w, hi8 w] (.sbcAbs w) ∧ Encodes [0xFD, lo8 w, hi8 w] (.sbcAbx w) ∧
      Encodes [0xF9, lo8 w, hi8 w] (.sbcAby w) ∧ Encodes [0xE1, b] (.sbcIzx b) ∧ Encodes [0xF1, b] (.sbcIzy b))

/-- R151, R152 (their derived readings, and 93_implementation_defined.md U3): ADC's overflow is the signed sum leaving
-128..127; SBC is subtraction with borrow, its carry means no borrow, its overflow is the signed difference leaving
-128..127. -/
def Obligations.OverflowIsTheSignedResultOutOfRange : Prop :=
  ∀ (s : State) (m : Byte),
    let c : Nat := (s.p.getLsbD 0).toNat
    (∃ t, exec (.adcImm m) s = .next t ∧ t.a.toNat = (s.a.toNat + m.toNat + c) % 256 ∧
      (t.p.getLsbD 6 = true ↔
        s.a.toInt + m.toInt + (c : Int) < -128 ∨ 127 < s.a.toInt + m.toInt + (c : Int))) ∧
    (∃ t, exec (.sbcImm m) s = .next t ∧
      (t.a.toNat : Int) = ((s.a.toNat : Int) - m.toNat - (1 - (c : Int))) % 256 ∧
      (t.p.getLsbD 0 = true ↔ m.toNat + (1 - c) ≤ s.a.toNat) ∧
      (t.p.getLsbD 6 = true ↔
        s.a.toInt - m.toInt - (1 - (c : Int)) < -128 ∨ 127 < s.a.toInt - m.toInt - (1 - (c : Int))))

/-- R151's property: addition with carry gives the same accumulator and the same flags with its two operands exchanged. -/
def Obligations.AdcIsCommutative : Prop :=
  ∀ (s : State) (a b : Byte),
    ∃ t, exec (.adcImm b) { s with a := a } = .next t ∧ exec (.adcImm a) { s with a := b } = .next t

/-- R153, R154, R155: the compares in all their forms write C, Z, N and nothing else. -/
def Obligations.ComparesWriteFlagsOnly : Prop :=
  ∀ (s : State) (b : Byte) (w : Word),
    Compares s s.a b 2 (exec (.cmpImm b) s) ∧
    Compares s s.a (s.readByte (resolve (.zp b) s)) 2 (exec (.cmpZp b) s) ∧
    Compares s s.a (s.readByte (resolve (.zpx b) s)) 2 (exec (.cmpZpx b) s) ∧
    Compares s s.a (s.readByte (resolve (.abs w) s)) 3 (exec (.cmpAbs w) s) ∧
    Compares s s.a (s.readByte (resolve (.abx w) s)) 3 (exec (.cmpAbx w) s) ∧
    Compares s s.a (s.readByte (resolve (.aby w) s)) 3 (exec (.cmpAby w) s) ∧
    Compares s s.a (s.readByte (resolve (.izx b) s)) 2 (exec (.cmpIzx b) s) ∧
    Compares s s.a (s.readByte (resolve (.izy b) s)) 2 (exec (.cmpIzy b) s) ∧
    Compares s s.x b 2 (exec (.cpxImm b) s) ∧
    Compares s s.x (s.readByte (resolve (.zp b) s)) 2 (exec (.cpxZp b) s) ∧
    Compares s s.x (s.readByte (resolve (.abs w) s)) 3 (exec (.cpxAbs w) s) ∧
    Compares s s.y b 2 (exec (.cpyImm b) s) ∧
    Compares s s.y (s.readByte (resolve (.zp b) s)) 2 (exec (.cpyZp b) s) ∧
    Compares s s.y (s.readByte (resolve (.abs w) s)) 3 (exec (.cpyAbs w) s) ∧
    (Encodes [0xC9, b] (.cmpImm b) ∧ Encodes [0xC5, b] (.cmpZp b) ∧ Encodes [0xD5, b] (.cmpZpx b) ∧
      Encodes [0xCD, lo8 w, hi8 w] (.cmpAbs w) ∧ Encodes [0xDD, lo8 w, hi8 w] (.cmpAbx w) ∧
      Encodes [0xD9, lo8 w, hi8 w] (.cmpAby w) ∧ Encodes [0xC1, b] (.cmpIzx b) ∧ Encodes [0xD1, b] (.cmpIzy b) ∧
      Encodes [0xE0, b] (.cpxImm b) ∧ Encodes [0xE4, b] (.cpxZp b) ∧ Encodes [0xEC, lo8 w, hi8 w] (.cpxAbs w) ∧
      Encodes [0xC0, b] (.cpyImm b) ∧ Encodes [0xC4, b] (.cpyZp b) ∧ Encodes [0xCC, lo8 w, hi8 w] (.cpyAbs w))

/-! ## Logic and bit test (43_logic_bit.md) -/

/-- R160, R161, R162: AND, ORA and EOR in their eight forms each. -/
def Obligations.LogicCombinesTheAccumulator : Prop :=
  ∀ (s : State) (b : Byte) (w : Word),
    (WritesA s (s.a &&& b) 2 (exec (.andImm b) s) ∧
      WritesA s (s.a &&& s.readByte (resolve (.zp b) s)) 2 (exec (.andZp b) s) ∧
      WritesA s (s.a &&& s.readByte (resolve (.zpx b) s)) 2 (exec (.andZpx b) s) ∧
      WritesA s (s.a &&& s.readByte (resolve (.abs w) s)) 3 (exec (.andAbs w) s) ∧
      WritesA s (s.a &&& s.readByte (resolve (.abx w) s)) 3 (exec (.andAbx w) s) ∧
      WritesA s (s.a &&& s.readByte (resolve (.aby w) s)) 3 (exec (.andAby w) s) ∧
      WritesA s (s.a &&& s.readByte (resolve (.izx b) s)) 2 (exec (.andIzx b) s) ∧
      WritesA s (s.a &&& s.readByte (resolve (.izy b) s)) 2 (exec (.andIzy b) s)) ∧
    (WritesA s (s.a ||| b) 2 (exec (.oraImm b) s) ∧
      WritesA s (s.a ||| s.readByte (resolve (.zp b) s)) 2 (exec (.oraZp b) s) ∧
      WritesA s (s.a ||| s.readByte (resolve (.zpx b) s)) 2 (exec (.oraZpx b) s) ∧
      WritesA s (s.a ||| s.readByte (resolve (.abs w) s)) 3 (exec (.oraAbs w) s) ∧
      WritesA s (s.a ||| s.readByte (resolve (.abx w) s)) 3 (exec (.oraAbx w) s) ∧
      WritesA s (s.a ||| s.readByte (resolve (.aby w) s)) 3 (exec (.oraAby w) s) ∧
      WritesA s (s.a ||| s.readByte (resolve (.izx b) s)) 2 (exec (.oraIzx b) s) ∧
      WritesA s (s.a ||| s.readByte (resolve (.izy b) s)) 2 (exec (.oraIzy b) s)) ∧
    (WritesA s (s.a ^^^ b) 2 (exec (.eorImm b) s) ∧
      WritesA s (s.a ^^^ s.readByte (resolve (.zp b) s)) 2 (exec (.eorZp b) s) ∧
      WritesA s (s.a ^^^ s.readByte (resolve (.zpx b) s)) 2 (exec (.eorZpx b) s) ∧
      WritesA s (s.a ^^^ s.readByte (resolve (.abs w) s)) 3 (exec (.eorAbs w) s) ∧
      WritesA s (s.a ^^^ s.readByte (resolve (.abx w) s)) 3 (exec (.eorAbx w) s) ∧
      WritesA s (s.a ^^^ s.readByte (resolve (.aby w) s)) 3 (exec (.eorAby w) s) ∧
      WritesA s (s.a ^^^ s.readByte (resolve (.izx b) s)) 2 (exec (.eorIzx b) s) ∧
      WritesA s (s.a ^^^ s.readByte (resolve (.izy b) s)) 2 (exec (.eorIzy b) s)) ∧
    (Encodes [0x29, b] (.andImm b) ∧ Encodes [0x25, b] (.andZp b) ∧ Encodes [0x35, b] (.andZpx b) ∧
      Encodes [0x2D, lo8 w, hi8 w] (.andAbs w) ∧ Encodes [0x3D, lo8 w, hi8 w] (.andAbx w) ∧
      Encodes [0x39, lo8 w, hi8 w] (.andAby w) ∧ Encodes [0x21, b] (.andIzx b) ∧ Encodes [0x31, b] (.andIzy b) ∧
      Encodes [0x09, b] (.oraImm b) ∧ Encodes [0x05, b] (.oraZp b) ∧ Encodes [0x15, b] (.oraZpx b) ∧
      Encodes [0x0D, lo8 w, hi8 w] (.oraAbs w) ∧ Encodes [0x1D, lo8 w, hi8 w] (.oraAbx w) ∧
      Encodes [0x19, lo8 w, hi8 w] (.oraAby w) ∧ Encodes [0x01, b] (.oraIzx b) ∧ Encodes [0x11, b] (.oraIzy b) ∧
      Encodes [0x49, b] (.eorImm b) ∧ Encodes [0x45, b] (.eorZp b) ∧ Encodes [0x55, b] (.eorZpx b) ∧
      Encodes [0x4D, lo8 w, hi8 w] (.eorAbs w) ∧ Encodes [0x5D, lo8 w, hi8 w] (.eorAbx w) ∧
      Encodes [0x59, lo8 w, hi8 w] (.eorAby w) ∧ Encodes [0x41, b] (.eorIzx b) ∧ Encodes [0x51, b] (.eorIzy b))

/-- R163: BIT in its two forms writes Z, V, N and nothing else. -/
def Obligations.BitTestsTheOperand : Prop :=
  ∀ (s : State) (b : Byte) (w : Word),
    TestsBits s (s.readByte (resolve (.zp b) s)) 2 (exec (.bitZp b) s) ∧
    TestsBits s (s.readByte (resolve (.abs w) s)) 3 (exec (.bitAbs w) s) ∧
    (Encodes [0x24, b] (.bitZp b) ∧ Encodes [0x2C, lo8 w, hi8 w] (.bitAbs w))

/-! ## Shift and rotate (44_shift_rotate.md) -/

/-- R170, R171, R173, R175, R177: the accumulator forms; results and carries by the table of R170. -/
def Obligations.AccumulatorShiftsFollowTheirValueFunctions : Prop :=
  ∀ s : State,
    let v := s.a.toNat
    let c := (s.p.getLsbD 0).toNat
    ShiftsA s (BitVec.ofNat 8 ((v <<< 1) % 256)) (s.a.getLsbD 7) (exec .aslAcc s) ∧
    ShiftsA s (BitVec.ofNat 8 (v >>> 1)) (s.a.getLsbD 0) (exec .lsrAcc s) ∧
    ShiftsA s (BitVec.ofNat 8 ((v <<< 1) % 256 ||| c)) (s.a.getLsbD 7) (exec .rolAcc s) ∧
    ShiftsA s (BitVec.ofNat 8 ((v >>> 1) ||| (c <<< 7))) (s.a.getLsbD 0) (exec .rorAcc s) ∧
    (Encodes [0x0A] .aslAcc ∧ Encodes [0x4A] .lsrAcc ∧ Encodes [0x2A] .rolAcc ∧ Encodes [0x6A] .rorAcc)

/-- R170, R172, R174, R176, R178: the memory forms; one store, at the effective address. -/
def Obligations.MemoryShiftsFollowTheirValueFunctions : Prop :=
  ∀ (s : State) (b : Byte) (w : Word),
    let c := (s.p.getLsbD 0).toNat
    let asl := fun (ea : Word) (len : Word) (o : Host.Outcome State Fault Refusal) =>
      let v := s.readByte ea
      ShiftsM s ea (BitVec.ofNat 8 ((v.toNat <<< 1) % 256)) (v.getLsbD 7) len o
    let lsr := fun (ea : Word) (len : Word) (o : Host.Outcome State Fault Refusal) =>
      let v := s.readByte ea
      ShiftsM s ea (BitVec.ofNat 8 (v.toNat >>> 1)) (v.getLsbD 0) len o
    let rol := fun (ea : Word) (len : Word) (o : Host.Outcome State Fault Refusal) =>
      let v := s.readByte ea
      ShiftsM s ea (BitVec.ofNat 8 ((v.toNat <<< 1) % 256 ||| c)) (v.getLsbD 7) len o
    let ror := fun (ea : Word) (len : Word) (o : Host.Outcome State Fault Refusal) =>
      let v := s.readByte ea
      ShiftsM s ea (BitVec.ofNat 8 ((v.toNat >>> 1) ||| (c <<< 7))) (v.getLsbD 0) len o
    (asl (resolve (.zp b) s) 2 (exec (.aslZp b) s) ∧ asl (resolve (.zpx b) s) 2 (exec (.aslZpx b) s) ∧
      asl (resolve (.abs w) s) 3 (exec (.aslAbs w) s) ∧ asl (resolve (.abx w) s) 3 (exec (.aslAbx w) s)) ∧
    (lsr (resolve (.zp b) s) 2 (exec (.lsrZp b) s) ∧ lsr (resolve (.zpx b) s) 2 (exec (.lsrZpx b) s) ∧
      lsr (resolve (.abs w) s) 3 (exec (.lsrAbs w) s) ∧ lsr (resolve (.abx w) s) 3 (exec (.lsrAbx w) s)) ∧
    (rol (resolve (.zp b) s) 2 (exec (.rolZp b) s) ∧ rol (resolve (.zpx b) s) 2 (exec (.rolZpx b) s) ∧
      rol (resolve (.abs w) s) 3 (exec (.rolAbs w) s) ∧ rol (resolve (.abx w) s) 3 (exec (.rolAbx w) s)) ∧
    (ror (resolve (.zp b) s) 2 (exec (.rorZp b) s) ∧ ror (resolve (.zpx b) s) 2 (exec (.rorZpx b) s) ∧
      ror (resolve (.abs w) s) 3 (exec (.rorAbs w) s) ∧ ror (resolve (.abx w) s) 3 (exec (.rorAbx w) s)) ∧
    (Encodes [0x06, b] (.aslZp b) ∧ Encodes [0x16, b] (.aslZpx b) ∧ Encodes [0x0E, lo8 w, hi8 w] (.aslAbs w) ∧
      Encodes [0x1E, lo8 w, hi8 w] (.aslAbx w) ∧ Encodes [0x46, b] (.lsrZp b) ∧ Encodes [0x56, b] (.lsrZpx b) ∧
      Encodes [0x4E, lo8 w, hi8 w] (.lsrAbs w) ∧ Encodes [0x5E, lo8 w, hi8 w] (.lsrAbx w) ∧
      Encodes [0x26, b] (.rolZp b) ∧ Encodes [0x36, b] (.rolZpx b) ∧ Encodes [0x2E, lo8 w, hi8 w] (.rolAbs w) ∧
      Encodes [0x3E, lo8 w, hi8 w] (.rolAbx w) ∧ Encodes [0x66, b] (.rorZp b) ∧ Encodes [0x76, b] (.rorZpx b) ∧
      Encodes [0x6E, lo8 w, hi8 w] (.rorAbs w) ∧ Encodes [0x7E, lo8 w, hi8 w] (.rorAbx w))

/-- R170's property: rotating left then right, or right then left, gives the accumulator and the carry back. -/
def Obligations.RotatesUndoEachOther : Prop :=
  ∀ s : State,
    (∃ t u, exec .rolAcc s = .next t ∧ exec .rorAcc t = .next u ∧ u.a = s.a ∧ u.p.getLsbD 0 = s.p.getLsbD 0) ∧
    (∃ t u, exec .rorAcc s = .next t ∧ exec .rolAcc t = .next u ∧ u.a = s.a ∧ u.p.getLsbD 0 = s.p.getLsbD 0)

/-! ## Increment and decrement (45_incdec.md) -/

/-- R180, R181: INC and DEC in their four forms each; the wrap touches no carry. -/
def Obligations.IncAndDecWrapTheByteAtTheEffectiveAddress : Prop :=
  ∀ (s : State) (b : Byte) (w : Word),
    let up := fun ea : Word => BitVec.ofNat 8 (((s.readByte ea).toNat + 1) % 256)
    let down := fun ea : Word => BitVec.ofNat 8 (((s.readByte ea).toNat + 255) % 256)
    (StoresWithZN s (resolve (.zp b) s) (up (resolve (.zp b) s)) 2 (exec (.incZp b) s) ∧
      StoresWithZN s (resolve (.zpx b) s) (up (resolve (.zpx b) s)) 2 (exec (.incZpx b) s) ∧
      StoresWithZN s (resolve (.abs w) s) (up (resolve (.abs w) s)) 3 (exec (.incAbs w) s) ∧
      StoresWithZN s (resolve (.abx w) s) (up (resolve (.abx w) s)) 3 (exec (.incAbx w) s)) ∧
    (StoresWithZN s (resolve (.zp b) s) (down (resolve (.zp b) s)) 2 (exec (.decZp b) s) ∧
      StoresWithZN s (resolve (.zpx b) s) (down (resolve (.zpx b) s)) 2 (exec (.decZpx b) s) ∧
      StoresWithZN s (resolve (.abs w) s) (down (resolve (.abs w) s)) 3 (exec (.decAbs w) s) ∧
      StoresWithZN s (resolve (.abx w) s) (down (resolve (.abx w) s)) 3 (exec (.decAbx w) s)) ∧
    (Encodes [0xE6, b] (.incZp b) ∧ Encodes [0xF6, b] (.incZpx b) ∧ Encodes [0xEE, lo8 w, hi8 w] (.incAbs w) ∧
      Encodes [0xFE, lo8 w, hi8 w] (.incAbx w) ∧ Encodes [0xC6, b] (.decZp b) ∧ Encodes [0xD6, b] (.decZpx b) ∧
      Encodes [0xCE, lo8 w, hi8 w] (.decAbs w) ∧ Encodes [0xDE, lo8 w, hi8 w] (.decAbx w))

/-- R182 to R185: INX, INY, DEX, DEY. -/
def Obligations.IndexRegistersCountModulo256 : Prop :=
  ∀ s : State,
    WritesX s (BitVec.ofNat 8 ((s.x.toNat + 1) % 256)) 1 (exec .inx s) ∧
    WritesY s (BitVec.ofNat 8 ((s.y.toNat + 1) % 256)) 1 (exec .iny s) ∧
    WritesX s (BitVec.ofNat 8 ((s.x.toNat + 255) % 256)) 1 (exec .dex s) ∧
    WritesY s (BitVec.ofNat 8 ((s.y.toNat + 255) % 256)) 1 (exec .dey s) ∧
    (Encodes [0xE8] .inx ∧ Encodes [0xC8] .iny ∧ Encodes [0xCA] .dex ∧ Encodes [0x88] .dey)

/-! ## Control transfer (46_control_flow.md) -/

/-- R190 to R198: the eight branches, taken and not taken, wrapping both ways. That a target which equals the address of
the displacement byte is that address is the choice of 92_eei_decisions.md D3 (log entry 5). -/
def Obligations.BranchesGoToTheDisplacedAddress : Prop :=
  ∀ (s : State) (d : Byte),
    Branches s (s.p.getLsbD 0 == false) d (exec (.bcc d) s) ∧
    Branches s (s.p.getLsbD 0 == true) d (exec (.bcs d) s) ∧
    Branches s (s.p.getLsbD 1 == true) d (exec (.beq d) s) ∧
    Branches s (s.p.getLsbD 1 == false) d (exec (.bne d) s) ∧
    Branches s (s.p.getLsbD 7 == true) d (exec (.bmi d) s) ∧
    Branches s (s.p.getLsbD 7 == false) d (exec (.bpl d) s) ∧
    Branches s (s.p.getLsbD 6 == false) d (exec (.bvc d) s) ∧
    Branches s (s.p.getLsbD 6 == true) d (exec (.bvs d) s) ∧
    (Encodes [0x90, d] (.bcc d) ∧ Encodes [0xB0, d] (.bcs d) ∧ Encodes [0xF0, d] (.beq d) ∧
      Encodes [0xD0, d] (.bne d) ∧ Encodes [0x30, d] (.bmi d) ∧ Encodes [0x10, d] (.bpl d) ∧
      Encodes [0x50, d] (.bvc d) ∧ Encodes [0x70, d] (.bvs d))

/-- R199, R200, R202: JMP absolute; JMP indirect, whose second pointer byte is in the page of the first; RTS, which
continues one past the word it pulls. That a target which equals the address after the opcode is that address is the
choice of 92_eei_decisions.md D3 (log entry 5). -/
def Obligations.JumpsAndRtsSetTheProgramCounter : Prop :=
  ∀ (s : State) (b1 b2 : Byte),
    exec (.jmpAbs (mk16 b2 b1)) s = .next { s with pc := mk16 b2 b1 } ∧
    exec (.jmpInd (mk16 b2 b1)) s =
      .next { s with pc := mk16 (s.readByte (mk16 b2 (b1 + 1))) (s.readByte (mk16 b2 b1)) } ∧
    exec .rts s =
      .next { s with sp := s.sp + 2,
                     pc := mk16 (s.readByte (stackAddr (s.sp + 2))) (s.readByte (stackAddr (s.sp + 1))) + 1 } ∧
    (Encodes [0x4C, b1, b2] (.jmpAbs (mk16 b2 b1)) ∧ Encodes [0x6C, b1, b2] (.jmpInd (mk16 b2 b1)) ∧
      Encodes [0x60] .rts)

/-- R201, R203: JSR pushes the address of its own last byte, high byte first (the reading of 92_eei_decisions.md D2);
RTI loads all eight bits of `P` (D16) and then `PC`, with no increment, and leaves the run status alone. -/
def Obligations.JsrPushesAndRtiPulls : Prop :=
  (∀ (s : State) (w : Word), ∃ m',
    exec (.jsr w) s = .next { s with mem := m', sp := s.sp - 2, pc := w } ∧
    Memory.read m' (stackAddr s.sp).toNat = hi8 (s.pc + 2) ∧
    Memory.read m' (stackAddr (s.sp - 1)).toNat = lo8 (s.pc + 2) ∧
    SameMemoryOutside [stackAddr s.sp, stackAddr (s.sp - 1)] s.mem m') ∧
  (∀ s : State, exec .rti s =
    .next { s with sp := s.sp + 3, p := s.readByte (stackAddr (s.sp + 1)),
                   pc := mk16 (s.readByte (stackAddr (s.sp + 3))) (s.readByte (stackAddr (s.sp + 2))) }) ∧
    (∀ w : Word, Encodes [0x20, lo8 w, hi8 w] (.jsr w) ∧ Encodes [0x40] .rti)

/-- R202's property: a call followed by a return leaves `PC` at the instruction after the call and the stack pointer as
it was, for every stack pointer. -/
def Obligations.CallThenReturnContinuesAfterTheCall : Prop :=
  ∀ (s : State) (w : Word), ∃ t u, exec (.jsr w) s = .next t ∧ t.pc = w ∧ exec .rts t = .next u ∧
    u = { s with mem := u.mem, pc := s.pc + 3 } ∧
    SameMemoryOutside [stackAddr s.sp, stackAddr (s.sp - 1)] s.mem u.mem

/-! ## Flags, transfers, stack, no-op, halt (47_flags_transfer_stack_misc.md) -/

/-- R210 to R215: the sets and clears of Carry, Decimal and Interrupt-Disable. -/
def Obligations.FlagInstructionsWriteTheirBitOnly : Prop :=
  ∀ s : State,
    WritesFlag s 0 false (exec .clc s) ∧ WritesFlag s 0 true (exec .sec s) ∧
    WritesFlag s 3 false (exec .cld s) ∧ WritesFlag s 3 true (exec .sed s) ∧
    WritesFlag s 2 false (exec .cli s) ∧ WritesFlag s 2 true (exec .sei s) ∧
    (Encodes [0x18] .clc ∧ Encodes [0x38] .sec ∧ Encodes [0xD8] .cld ∧ Encodes [0xF8] .sed ∧
      Encodes [0x58] .cli ∧ Encodes [0x78] .sei)

/-- R217, R218, R227: TAX, TXA and NOP. -/
def Obligations.TaxTxaCopyAndNopOnlyAdvances : Prop :=
  ∀ s : State, WritesX s s.a 1 (exec .tax s) ∧ WritesA s s.x 1 (exec .txa s) ∧
    exec .nop s = .next { s with pc := s.pc + 1 } ∧
    (Encodes [0xAA] .tax ∧ Encodes [0x8A] .txa ∧ Encodes [0xEA] .nop)

/-- R216, R219 to R222, R224, the members of the set that are the choice of 92_eei_decisions.md D17: CLV clears V only;
TAY, TYA and TSX copy and set Z and N; TXS writes no flag; PLA sets Z and N from the pulled byte. -/
def Obligations.UnlistedMembersFollowTheirGroups : Prop :=
  ∀ s : State,
    WritesFlag s 6 false (exec .clv s) ∧ WritesY s s.a 1 (exec .tay s) ∧ WritesA s s.y 1 (exec .tya s) ∧
    WritesX s s.sp 1 (exec .tsx s) ∧ exec .txs s = .next { s with sp := s.x, pc := s.pc + 1 } ∧
    (∃ p', ZNFrom (s.readByte (stackAddr (s.sp + 1))) s.p p' ∧
      exec .pla s = .next { s with a := s.readByte (stackAddr (s.sp + 1)), p := p', sp := s.sp + 1, pc := s.pc + 1 }) ∧
    (Encodes [0xB8] .clv ∧ Encodes [0xA8] .tay ∧ Encodes [0x98] .tya ∧ Encodes [0xBA] .tsx ∧
      Encodes [0x9A] .txs ∧ Encodes [0x68] .pla)

/-- R223, R225, R226: PHA and PHP store their byte as it is, PLP replaces all eight bits of `P`. -/
def Obligations.PhaPhpPushAndPlpPulls : Prop :=
  ∀ s : State,
    Pushes s s.a (exec .pha s) ∧ Pushes s s.p (exec .php s) ∧
    exec .plp s = .next { s with p := s.readByte (stackAddr (s.sp + 1)), sp := s.sp + 1, pc := s.pc + 1 } ∧
    (Encodes [0x48] .pha ∧ Encodes [0x08] .php ∧ Encodes [0x28] .plp)

/-- R232, with the choice of 92_eei_decisions.md D11 that BRK leaves `PC` just past itself: BRK halts and changes
nothing else; nothing is pushed and no vector is read. -/
def Obligations.BrkHaltsAndChangesNothingElse : Prop :=
  ∀ s : State, exec .brk s = .next { s with run := .halted, pc := s.pc + 1 } ∧
    (Encodes [0x00] .brk)

/-- The push and pull property of 47_flags_transfer_stack_misc.md section 3: PHA then PLA, and PHP then PLP, give the
byte back, for every byte and every stack pointer. -/
def Obligations.PushThenPullRestoresTheByte : Prop :=
  ∀ s : State,
    (∃ t u, exec .pha s = .next t ∧ exec .pla { t with a := 0x00 } = .next u ∧ u.a = s.a ∧ u.sp = s.sp) ∧
    (∃ t u, exec .php s = .next t ∧ exec .plp { t with p := 0x00 } = .next u ∧ u.p = s.p ∧ u.sp = s.sp)

/-! ## The whole machine -/

/-- R34: a flag that the flag summary does not list for a mnemonic is unchanged by it. The summary is marked as derived;
its rows for CLV, TAY, TYA, TSX, TXS and PLA are the choice of 92_eei_decisions.md D17, RTI's that of D16 (log entry 12). -/
def Obligations.UnlistedFlagsAreUnchanged : Prop :=
  ∀ (i : Instr) (s : State), ∃ t, exec i s = .next t ∧ SameBitsExcept (flagsWritten i.mnemonic) s.p t.p

/-- R21 to R24, R35: which instructions write which register, and whoever changes `A`, `X` or `Y` leaves Z and N those
of the new value. -/
def Obligations.RegistersAreWrittenByTheirInstructionsOnly : Prop :=
  ∀ (i : Instr) (s : State), ∃ t, exec i s = .next t ∧
    (t.a ≠ s.a → (i.mnemonic ∈ [Mnemonic.lda, .pla, .txa, .tya, .adc, .sbc, .and, .ora, .eor] ∨ i.mode = .acc) ∧
      t.p.getLsbD 1 = decide (t.a = 0) ∧ t.p.getLsbD 7 = t.a.getLsbD 7) ∧
    (t.x ≠ s.x → i.mnemonic ∈ [Mnemonic.ldx, .tax, .tsx, .inx, .dex] ∧
      t.p.getLsbD 1 = decide (t.x = 0) ∧ t.p.getLsbD 7 = t.x.getLsbD 7) ∧
    (t.y ≠ s.y → i.mnemonic ∈ [Mnemonic.ldy, .tay, .iny, .dey] ∧
      t.p.getLsbD 1 = decide (t.y = 0) ∧ t.p.getLsbD 7 = t.y.getLsbD 7) ∧
    (t.sp ≠ s.sp → i.mnemonic ∈ [Mnemonic.pha, .php, .pla, .plp, .jsr, .rts, .rti, .txs])

/-- R54: no instruction changes a byte of memory outside the addresses it stores to. -/
def Obligations.MemoryChangesOnlyWhereTheInstructionStores : Prop :=
  ∀ (i : Instr) (s : State), ∃ t, exec i s = .next t ∧ SameMemoryOutside (storeAddresses i s) s.mem t.mem

/-- R29, R30, R31, R156: Interrupt-Disable, Decimal and bits 4 and 5 are storage only: they take part in nothing. Run
from two states that differ in one of these bits, an instruction gives two states that differ in that bit alone; CLI,
SEI (bit 2), CLD, SED (bit 3), PLP and RTI, which overwrite it, give one and the same state; PHP, the one reader, gives
states that differ in that bit and in the byte it pushed. That ADC and SBC ignore Decimal is the choice of
92_eei_decisions.md D18, that RTI overwrites bits 4 and 5 that of D16 (log entry 12). -/
def Obligations.StorageOnlyBitsInfluenceNothing : Prop :=
  ∀ (i : Instr) (s : State) (k : Nat), k ∈ [2, 3, 4, 5] →
    ∃ t t', exec i s = .next t ∧ exec i (s.flipFlag k) = .next t' ∧
      (i.mnemonic ∉ [Mnemonic.php, .plp, .rti, .cli, .sei, .cld, .sed] → t' = t.flipFlag k) ∧
      ((i.mnemonic ∈ [Mnemonic.plp, .rti] ∨ (k = 2 ∧ i.mnemonic ∈ [Mnemonic.cli, .sei]) ∨
        (k = 3 ∧ i.mnemonic ∈ [Mnemonic.cld, .sed])) → t' = t) ∧
      ((k ≠ 2 ∧ i.mnemonic ∈ [Mnemonic.cli, .sei]) ∨ (k ≠ 3 ∧ i.mnemonic ∈ [Mnemonic.cld, .sed]) →
        t' = t.flipFlag k) ∧
      (i.mnemonic = .php → t' = { t.flipFlag k with mem := t'.mem } ∧
        SameMemoryOutside [stackAddr s.sp] t.mem t'.mem)

/-- The invariant holds at reset (10_state.md R40; log entry 13 for the memory's form). -/
def Obligations.ResetStateSatisfiesTheInvariant : Prop := Inv State.reset

/-- Every step keeps the invariant: memory stays in canonical form (log entry 13), and a machine that stops stands at
the illegal byte its status names, or just past the BRK that halted it (R38, with the choices of 92_eei_decisions.md
D11 and D12 for `PC`). -/
def Obligations.EveryStepKeepsTheInvariant : Prop :=
  ∀ s t : State, Inv s → step s = .next t → Inv t

/-- So does a step with any hook that keeps memory canonical; a reset establishes it from any canonical memory, and a
load keeps memory canonical, so that the reset after it does too. -/
def Obligations.HooksResetAndLoadKeepTheInvariant : Prop :=
  (∀ (h : Hook) (s t : State), HookKeepsMemory h → Inv s → stepWith h s = .next t → Inv t) ∧
  (∀ s : State, Memory.wf s.mem = true → Inv s.assertReset) ∧
  (∀ (s t : State) (base : Word) (prog : List Byte), Memory.wf s.mem = true → s.load base prog = .next t →
    Memory.wf t.mem = true ∧ Inv t.assertReset)
end

