-- ==== Sys2Proof/Laws/Memory.lean ====
section
/-! SUPPORT. The laws of memory: what a write does to every read, and that every operation on memory keeps the
canonical form. -/

namespace Sys2Proof.Machine

/-! ## Reads after a write -/

theorem Memory.read_erase_same (m : Memory) (a : Nat) : Memory.read (Memory.erase m a) a = Config.unwritten := by
  induction m with
  | nil => rfl
  | cons e rest ih => by_cases h : e.1 = a <;> simp [Memory.erase, Memory.read, h, ih]

theorem Memory.read_erase_other (m : Memory) {a b : Nat} (hab : b ≠ a) :
    Memory.read (Memory.erase m a) b = Memory.read m b := by
  induction m with
  | nil => rfl
  | cons e rest ih =>
    by_cases h : e.1 = a
    · simp [Memory.erase, Memory.read, h, ih, Ne.symm hab]
    · by_cases hb : e.1 = b <;> simp [Memory.erase, Memory.read, h, hb, ih, hab]

theorem Memory.erase_has_no_entry (m : Memory) (a : Nat) : ∀ e ∈ Memory.erase m a, e.1 ≠ a := by
  induction m with
  | nil => simp [Memory.erase]
  | cons e rest ih =>
    by_cases h : e.1 = a
    · simpa [Memory.erase, h] using ih
    · simpa [Memory.erase, h] using ih

theorem Memory.read_insert_same {m : Memory} {a : Nat} (v : Byte) (h : ∀ e ∈ m, e.1 ≠ a) :
    Memory.read (Memory.insert m a v) a = v := by
  induction m with
  | nil => simp [Memory.insert, Memory.read]
  | cons e rest ih =>
    have he : e.1 ≠ a := h e (by simp)
    have ih := ih fun e' he' => h e' (by simp [he'])
    by_cases hlt : a < e.1 <;> simp [Memory.insert, Memory.read, hlt, he, ih]

theorem Memory.read_insert_other (m : Memory) {a b : Nat} (v : Byte) (hab : b ≠ a) :
    Memory.read (Memory.insert m a v) b = Memory.read m b := by
  induction m with
  | nil => simp [Memory.insert, Memory.read, Ne.symm hab]
  | cons e rest ih =>
    by_cases hlt : a < e.1
    · simp [Memory.insert, Memory.read, hlt, Ne.symm hab]
    · by_cases hb : e.1 = b
      · subst hb; simp [Memory.insert, Memory.read, hlt]
      · simp [Memory.insert, Memory.read, hlt, hb, ih]

/-- What a write does to every read (20_memory.md R51). -/
theorem Memory.read_write (m : Memory) (a b : Nat) (v : Byte) :
    Memory.read (Memory.write m a v) b = if b = a then v else Memory.read m b := by
  unfold Memory.write
  split
  · next hv =>
    split
    · next h => rw [h, Memory.read_erase_same, hv]
    · next h => exact Memory.read_erase_other m h
  · split
    · next h => rw [h, Memory.read_insert_same v (Memory.erase_has_no_entry m a)]
    · next h => rw [Memory.read_insert_other _ v h, Memory.read_erase_other m h]

@[simp] theorem Memory.read_write_same (m : Memory) (a : Nat) (v : Byte) :
    Memory.read (Memory.write m a v) a = v := by simp [Memory.read_write]

theorem Memory.read_write_other (m : Memory) {a b : Nat} (v : Byte) (h : b ≠ a) :
    Memory.read (Memory.write m a v) b = Memory.read m b := by simp [Memory.read_write, h]

@[simp] theorem Memory.read_nil (a : Nat) : Memory.read [] a = Config.unwritten := rfl

/-! ## The canonical form -/

theorem Memory.wfFrom_mono {lo lo' : Nat} {m : Memory} (hle : lo' ≤ lo) (h : Memory.wfFrom lo m = true) :
    Memory.wfFrom lo' m = true := by
  cases m with
  | nil => rfl
  | cons e rest =>
    simp only [Memory.wfFrom, Bool.and_eq_true, decide_eq_true_eq] at h ⊢
    exact ⟨⟨⟨by omega, h.1.1.2⟩, h.1.2⟩, h.2⟩

theorem Memory.wfFrom_erase {lo : Nat} {m : Memory} (a : Nat) (h : Memory.wfFrom lo m = true) :
    Memory.wfFrom lo (Memory.erase m a) = true := by
  induction m generalizing lo with
  | nil => rfl
  | cons e rest ih =>
    simp only [Memory.wfFrom, Bool.and_eq_true, decide_eq_true_eq] at h
    by_cases he : e.1 = a
    · simpa [Memory.erase, he] using ih (Memory.wfFrom_mono (by omega) h.2)
    · simp [Memory.erase, he, Memory.wfFrom, ih h.2, h.1.1.1, h.1.1.2, h.1.2]

theorem Memory.wfFrom_insert {lo : Nat} {m : Memory} {a : Nat} {v : Byte} (hlo : lo ≤ a)
    (ha : a < Config.addressSpace) (hv : v ≠ Config.unwritten) (hm : ∀ e ∈ m, e.1 ≠ a)
    (h : Memory.wfFrom lo m = true) : Memory.wfFrom lo (Memory.insert m a v) = true := by
  induction m generalizing lo with
  | nil => simp [Memory.insert, Memory.wfFrom, hlo, ha, hv]
  | cons e rest ih =>
    simp only [Memory.wfFrom, Bool.and_eq_true, decide_eq_true_eq] at h
    have he : e.1 ≠ a := hm e (by simp)
    by_cases hlt : a < e.1
    · have hge : a + 1 ≤ e.1 := hlt
      simp [Memory.insert, hlt, Memory.wfFrom, hlo, ha, hv, h.1.1.2, h.1.2, h.2, hge]
    · have := ih (lo := e.1 + 1) (by omega) (fun e' he' => hm e' (by simp [he'])) h.2
      simp [Memory.insert, hlt, Memory.wfFrom, h.1.1.1, h.1.1.2, h.1.2, this]

/-- A write inside the address space keeps the canonical form. -/
theorem Memory.wf_write {m : Memory} {a : Nat} (v : Byte) (ha : a < Config.addressSpace) (h : Memory.wf m = true) :
    Memory.wf (Memory.write m a v) = true := by
  unfold Memory.write
  split
  · exact Memory.wfFrom_erase a h
  · next hv =>
    exact Memory.wfFrom_insert (Nat.zero_le a) ha hv (Memory.erase_has_no_entry m a) (Memory.wfFrom_erase a h)

theorem word_in_addressSpace (a : Word) : a.toNat < Config.addressSpace := a.isLt

/-- A store keeps the canonical form. -/
theorem State.wf_writeByte {s : State} (a : Word) (v : Byte) (h : Memory.wf s.mem = true) :
    Memory.wf (s.writeByte a v).mem = true := Memory.wf_write v (word_in_addressSpace a) h

theorem State.wf_push8 {s : State} (v : Byte) (h : Memory.wf s.mem = true) : Memory.wf (s.push8 v).mem = true :=
  State.wf_writeByte _ v h

theorem State.wf_push16 {s : State} (w : Word) (h : Memory.wf s.mem = true) : Memory.wf (s.push16 w).mem = true :=
  State.wf_push8 _ (State.wf_push8 _ h)

theorem State.wf_copyImage {s : State} (a : Word) (prog : List Byte) (h : Memory.wf s.mem = true) :
    Memory.wf (s.copyImage a prog).mem = true := by
  induction prog generalizing s a with
  | nil => exact h
  | cons v rest ih => exact ih (a + 1) (State.wf_writeByte a v h)

theorem HookWrite.wf_apply (w : HookWrite) {v : HookView} (h : Memory.wf v.mem = true) :
    Memory.wf (w.apply v).mem = true := by
  cases w with
  | mem addr b => exact Memory.wf_write b (word_in_addressSpace addr) h
  | a _ | x _ | y _ | sp _ | p _ | pc _ => exact h

/-- A pending answer of the hook keeps the canonical form. -/
theorem HookCall.wf_toHook (c : HookCall) {v : HookView} (h : Memory.wf v.mem = true) :
    Memory.wf (c.toHook v).1.mem = true := by
  obtain ⟨writes, d⟩ := c
  show Memory.wf (writes.foldl _ v).mem = true
  induction writes generalizing v with
  | nil => exact h
  | cons w rest ih => exact ih (w.wf_apply h)

theorem State.reset_mem_wf : Memory.wf State.reset.mem = true := rfl

/-! ## Reads of one byte after the named updates -/

theorem State.readByte_writeByte (s : State) (a b : Word) (v : Byte) :
    (s.writeByte a v).readByte b = if b = a then v else s.readByte b := by
  simp only [State.readByte, State.writeByte, Memory.read_write, BitVec.toNat_inj]

/-- What a copied image leaves at every address (70_reset_and_hazards.md R273), for an image that does not wrap. -/
theorem State.readByte_copyImage (s : State) (base a : Word) (prog : List Byte)
    (hfit : base.toNat + prog.length ≤ Config.addressSpace) :
    (s.copyImage base prog).readByte a =
      if h : base.toNat ≤ a.toNat ∧ a.toNat < base.toNat + prog.length then prog[a.toNat - base.toNat]'(by omega)
      else s.readByte a := by
  induction prog generalizing s base with
  | nil => simp [State.copyImage]
  | cons v rest ih =>
    simp only [List.length_cons, Config.addressSpace] at hfit
    have ha := a.isLt
    cases rest with
    | nil =>
      simp only [State.copyImage, State.readByte_writeByte]
      by_cases hab : a = base
      · subst hab; simp
      · have : a.toNat ≠ base.toNat := fun h => hab (BitVec.eq_of_toNat_eq h)
        rw [if_neg hab, dif_neg (by simp; omega)]
    | cons u rest =>
      simp only [List.length_cons] at hfit
      have hb : (base + 1).toNat = base.toNat + 1 := by simp [BitVec.toNat_add]; omega
      rw [State.copyImage, ih _ (base + 1) (by simp [Config.addressSpace]; omega), State.readByte_writeByte]
      by_cases hab : a = base
      · subst hab; rw [dif_neg (by omega)]; simp
      · have hne : a.toNat ≠ base.toNat := fun h => hab (BitVec.eq_of_toNat_eq h)
        simp only [hb, List.length_cons, if_neg hab]
        by_cases hin : base.toNat + 1 ≤ a.toNat ∧ a.toNat < base.toNat + 1 + (rest.length + 1)
        · rw [dif_pos hin, dif_pos (by omega)]
          have : a.toNat - base.toNat = (a.toNat - (base.toNat + 1)) + 1 := by omega
          simp [this]
        · rw [dif_neg hin, dif_neg (by omega)]

/-- A copied image changes memory alone. -/
theorem State.copyImage_spec (s : State) (base : Word) (prog : List Byte) :
    s.copyImage base prog = { s with mem := (s.copyImage base prog).mem } := by
  induction prog generalizing s base with
  | nil => rfl
  | cons v rest ih => exact ih (s.writeByte base v) (base + 1)

end Sys2Proof.Machine
end

