-- ==== Sys2Proof/Laws/State.lean ====
section
/-! SUPPORT. One lemma per field per named update of the state: what the update writes, and that it leaves the rest. -/

namespace Sys2Proof.Machine

@[simp] theorem State.writeByte_a (s : State) (addr : Word) (v : Byte) : (s.writeByte addr v).a = s.a := rfl
@[simp] theorem State.writeByte_x (s : State) (addr : Word) (v : Byte) : (s.writeByte addr v).x = s.x := rfl
@[simp] theorem State.writeByte_y (s : State) (addr : Word) (v : Byte) : (s.writeByte addr v).y = s.y := rfl
@[simp] theorem State.writeByte_sp (s : State) (addr : Word) (v : Byte) : (s.writeByte addr v).sp = s.sp := rfl
@[simp] theorem State.writeByte_p (s : State) (addr : Word) (v : Byte) : (s.writeByte addr v).p = s.p := rfl
@[simp] theorem State.writeByte_pc (s : State) (addr : Word) (v : Byte) : (s.writeByte addr v).pc = s.pc := rfl
@[simp] theorem State.writeByte_mem (s : State) (addr : Word) (v : Byte) : (s.writeByte addr v).mem = Memory.write s.mem addr.toNat v := rfl
@[simp] theorem State.writeByte_run (s : State) (addr : Word) (v : Byte) : (s.writeByte addr v).run = s.run := rfl
@[simp] theorem State.writeByte_hookCalls (s : State) (addr : Word) (v : Byte) : (s.writeByte addr v).hookCalls = s.hookCalls := rfl

@[simp] theorem State.setSP_a (s : State) (v : Byte) : (s.setSP v).a = s.a := rfl
@[simp] theorem State.setSP_x (s : State) (v : Byte) : (s.setSP v).x = s.x := rfl
@[simp] theorem State.setSP_y (s : State) (v : Byte) : (s.setSP v).y = s.y := rfl
@[simp] theorem State.setSP_sp (s : State) (v : Byte) : (s.setSP v).sp = v := rfl
@[simp] theorem State.setSP_p (s : State) (v : Byte) : (s.setSP v).p = s.p := rfl
@[simp] theorem State.setSP_pc (s : State) (v : Byte) : (s.setSP v).pc = s.pc := rfl
@[simp] theorem State.setSP_mem (s : State) (v : Byte) : (s.setSP v).mem = s.mem := rfl
@[simp] theorem State.setSP_run (s : State) (v : Byte) : (s.setSP v).run = s.run := rfl
@[simp] theorem State.setSP_hookCalls (s : State) (v : Byte) : (s.setSP v).hookCalls = s.hookCalls := rfl

@[simp] theorem State.setP_a (s : State) (v : Byte) : (s.setP v).a = s.a := rfl
@[simp] theorem State.setP_x (s : State) (v : Byte) : (s.setP v).x = s.x := rfl
@[simp] theorem State.setP_y (s : State) (v : Byte) : (s.setP v).y = s.y := rfl
@[simp] theorem State.setP_sp (s : State) (v : Byte) : (s.setP v).sp = s.sp := rfl
@[simp] theorem State.setP_p (s : State) (v : Byte) : (s.setP v).p = v := rfl
@[simp] theorem State.setP_pc (s : State) (v : Byte) : (s.setP v).pc = s.pc := rfl
@[simp] theorem State.setP_mem (s : State) (v : Byte) : (s.setP v).mem = s.mem := rfl
@[simp] theorem State.setP_run (s : State) (v : Byte) : (s.setP v).run = s.run := rfl
@[simp] theorem State.setP_hookCalls (s : State) (v : Byte) : (s.setP v).hookCalls = s.hookCalls := rfl

@[simp] theorem State.setPC_a (s : State) (w : Word) : (s.setPC w).a = s.a := rfl
@[simp] theorem State.setPC_x (s : State) (w : Word) : (s.setPC w).x = s.x := rfl
@[simp] theorem State.setPC_y (s : State) (w : Word) : (s.setPC w).y = s.y := rfl
@[simp] theorem State.setPC_sp (s : State) (w : Word) : (s.setPC w).sp = s.sp := rfl
@[simp] theorem State.setPC_p (s : State) (w : Word) : (s.setPC w).p = s.p := rfl
@[simp] theorem State.setPC_pc (s : State) (w : Word) : (s.setPC w).pc = w := rfl
@[simp] theorem State.setPC_mem (s : State) (w : Word) : (s.setPC w).mem = s.mem := rfl
@[simp] theorem State.setPC_run (s : State) (w : Word) : (s.setPC w).run = s.run := rfl
@[simp] theorem State.setPC_hookCalls (s : State) (w : Word) : (s.setPC w).hookCalls = s.hookCalls := rfl

@[simp] theorem State.loadA_a (s : State) (v : Byte) : (s.loadA v).a = v := rfl
@[simp] theorem State.loadA_x (s : State) (v : Byte) : (s.loadA v).x = s.x := rfl
@[simp] theorem State.loadA_y (s : State) (v : Byte) : (s.loadA v).y = s.y := rfl
@[simp] theorem State.loadA_sp (s : State) (v : Byte) : (s.loadA v).sp = s.sp := rfl
@[simp] theorem State.loadA_p (s : State) (v : Byte) : (s.loadA v).p = setZN v s.p := rfl
@[simp] theorem State.loadA_pc (s : State) (v : Byte) : (s.loadA v).pc = s.pc := rfl
@[simp] theorem State.loadA_mem (s : State) (v : Byte) : (s.loadA v).mem = s.mem := rfl
@[simp] theorem State.loadA_run (s : State) (v : Byte) : (s.loadA v).run = s.run := rfl
@[simp] theorem State.loadA_hookCalls (s : State) (v : Byte) : (s.loadA v).hookCalls = s.hookCalls := rfl

@[simp] theorem State.loadX_a (s : State) (v : Byte) : (s.loadX v).a = s.a := rfl
@[simp] theorem State.loadX_x (s : State) (v : Byte) : (s.loadX v).x = v := rfl
@[simp] theorem State.loadX_y (s : State) (v : Byte) : (s.loadX v).y = s.y := rfl
@[simp] theorem State.loadX_sp (s : State) (v : Byte) : (s.loadX v).sp = s.sp := rfl
@[simp] theorem State.loadX_p (s : State) (v : Byte) : (s.loadX v).p = setZN v s.p := rfl
@[simp] theorem State.loadX_pc (s : State) (v : Byte) : (s.loadX v).pc = s.pc := rfl
@[simp] theorem State.loadX_mem (s : State) (v : Byte) : (s.loadX v).mem = s.mem := rfl
@[simp] theorem State.loadX_run (s : State) (v : Byte) : (s.loadX v).run = s.run := rfl
@[simp] theorem State.loadX_hookCalls (s : State) (v : Byte) : (s.loadX v).hookCalls = s.hookCalls := rfl

@[simp] theorem State.loadY_a (s : State) (v : Byte) : (s.loadY v).a = s.a := rfl
@[simp] theorem State.loadY_x (s : State) (v : Byte) : (s.loadY v).x = s.x := rfl
@[simp] theorem State.loadY_y (s : State) (v : Byte) : (s.loadY v).y = v := rfl
@[simp] theorem State.loadY_sp (s : State) (v : Byte) : (s.loadY v).sp = s.sp := rfl
@[simp] theorem State.loadY_p (s : State) (v : Byte) : (s.loadY v).p = setZN v s.p := rfl
@[simp] theorem State.loadY_pc (s : State) (v : Byte) : (s.loadY v).pc = s.pc := rfl
@[simp] theorem State.loadY_mem (s : State) (v : Byte) : (s.loadY v).mem = s.mem := rfl
@[simp] theorem State.loadY_run (s : State) (v : Byte) : (s.loadY v).run = s.run := rfl
@[simp] theorem State.loadY_hookCalls (s : State) (v : Byte) : (s.loadY v).hookCalls = s.hookCalls := rfl

@[simp] theorem State.advance_a (s : State) (n : Nat) : (s.advance n).a = s.a := rfl
@[simp] theorem State.advance_x (s : State) (n : Nat) : (s.advance n).x = s.x := rfl
@[simp] theorem State.advance_y (s : State) (n : Nat) : (s.advance n).y = s.y := rfl
@[simp] theorem State.advance_sp (s : State) (n : Nat) : (s.advance n).sp = s.sp := rfl
@[simp] theorem State.advance_p (s : State) (n : Nat) : (s.advance n).p = s.p := rfl
@[simp] theorem State.advance_pc (s : State) (n : Nat) : (s.advance n).pc = s.pc + BitVec.ofNat 16 n := rfl
@[simp] theorem State.advance_mem (s : State) (n : Nat) : (s.advance n).mem = s.mem := rfl
@[simp] theorem State.advance_run (s : State) (n : Nat) : (s.advance n).run = s.run := rfl
@[simp] theorem State.advance_hookCalls (s : State) (n : Nat) : (s.advance n).hookCalls = s.hookCalls := rfl

@[simp] theorem State.push8_a (s : State) (v : Byte) : (s.push8 v).a = s.a := rfl
@[simp] theorem State.push8_x (s : State) (v : Byte) : (s.push8 v).x = s.x := rfl
@[simp] theorem State.push8_y (s : State) (v : Byte) : (s.push8 v).y = s.y := rfl
@[simp] theorem State.push8_sp (s : State) (v : Byte) : (s.push8 v).sp = s.sp - 1 := rfl
@[simp] theorem State.push8_p (s : State) (v : Byte) : (s.push8 v).p = s.p := rfl
@[simp] theorem State.push8_pc (s : State) (v : Byte) : (s.push8 v).pc = s.pc := rfl
@[simp] theorem State.push8_mem (s : State) (v : Byte) : (s.push8 v).mem = Memory.write s.mem (stackAddr s.sp).toNat v := rfl
@[simp] theorem State.push8_run (s : State) (v : Byte) : (s.push8 v).run = s.run := rfl
@[simp] theorem State.push8_hookCalls (s : State) (v : Byte) : (s.push8 v).hookCalls = s.hookCalls := rfl

@[simp] theorem State.stop_a (s : State) (st : RunStatus) : (s.stop st).a = s.a := rfl
@[simp] theorem State.stop_x (s : State) (st : RunStatus) : (s.stop st).x = s.x := rfl
@[simp] theorem State.stop_y (s : State) (st : RunStatus) : (s.stop st).y = s.y := rfl
@[simp] theorem State.stop_sp (s : State) (st : RunStatus) : (s.stop st).sp = s.sp := rfl
@[simp] theorem State.stop_p (s : State) (st : RunStatus) : (s.stop st).p = s.p := rfl
@[simp] theorem State.stop_pc (s : State) (st : RunStatus) : (s.stop st).pc = s.pc := rfl
@[simp] theorem State.stop_mem (s : State) (st : RunStatus) : (s.stop st).mem = s.mem := rfl
@[simp] theorem State.stop_run (s : State) (st : RunStatus) : (s.stop st).run = st := rfl
@[simp] theorem State.stop_hookCalls (s : State) (st : RunStatus) : (s.stop st).hookCalls = s.hookCalls := rfl

@[simp] theorem State.readByte_setSP (s : State) (v : Byte) (a : Word) : (s.setSP v).readByte a = s.readByte a := rfl
@[simp] theorem State.readByte_setP (s : State) (v : Byte) (a : Word) : (s.setP v).readByte a = s.readByte a := rfl
@[simp] theorem State.readByte_setPC (s : State) (w a : Word) : (s.setPC w).readByte a = s.readByte a := rfl

/-- A state put back where it was seen is itself. -/
@[simp] theorem State.withView_view (s : State) : s.withView s.view = s := rfl

@[simp] theorem State.view_withView (s : State) (v : HookView) : (s.withView v).view = v := rfl
@[simp] theorem State.withView_run (s : State) (v : HookView) : (s.withView v).run = s.run := rfl
@[simp] theorem State.withView_pc (s : State) (v : HookView) : (s.withView v).pc = v.pc := rfl
@[simp] theorem State.withView_mem (s : State) (v : HookView) : (s.withView v).mem = v.mem := rfl
@[simp] theorem State.withView_hookCalls (s : State) (v : HookView) : (s.withView v).hookCalls = s.hookCalls := rfl

end Sys2Proof.Machine
end

