-- ==== Sys2Proof/Laws/Ops.lean ====
section
/-! SUPPORT. What each shared operation over memory, the stack and the program counter can do: each lemma says the whole
of it, so that a proof cites it and does not unfold. -/

namespace Sys2Proof.Machine

theorem lo8_toNat (w : Word) : (lo8 w).toNat = w.toNat % 256 := by
  simp [lo8, BitVec.extractLsb'_toNat]

theorem hi8_toNat (w : Word) : (hi8 w).toNat = w.toNat / 256 := by
  have := w.isLt
  simp [hi8, BitVec.extractLsb'_toNat, Nat.shiftRight_eq_div_pow]
  omega

theorem mk16_toNat (h l : Byte) : (mk16 h l).toNat = 256 * h.toNat + l.toNat := by
  have := h.isLt
  have := l.isLt
  simp [mk16]
  omega

@[simp] theorem zext16_toNat (v : Byte) : (zext16 v).toNat = v.toNat := by
  have := v.isLt
  simp [zext16]
  omega

@[simp] theorem lo8_mk16 (h l : Byte) : lo8 (mk16 h l) = l := by
  have := l.isLt
  apply BitVec.eq_of_toNat_eq
  rw [lo8_toNat, mk16_toNat]
  omega

@[simp] theorem hi8_mk16 (h l : Byte) : hi8 (mk16 h l) = h := by
  have := l.isLt
  apply BitVec.eq_of_toNat_eq
  rw [hi8_toNat, mk16_toNat]
  omega

@[simp] theorem mk16_hi8_lo8 (w : Word) : mk16 (hi8 w) (lo8 w) = w := by
  apply BitVec.eq_of_toNat_eq
  rw [mk16_toNat, hi8_toNat, lo8_toNat]
  omega

theorem stackAddr_inj {a b : Byte} : stackAddr a = stackAddr b ↔ a = b := by
  constructor
  · intro h
    have := congrArg lo8 h
    simpa [stackAddr] using this
  · rintro rfl; rfl

theorem byte_sub_one_ne (v : Byte) : v - 1 ≠ v := by bv_omega

/-- A store, as every read sees it (20_memory.md R51). -/
theorem State.writeByte_stores (s : State) (a : Word) (v : Byte) : StoredByte a v s.mem (s.writeByte a v).mem := by
  refine ⟨Memory.read_write_same _ _ _, fun b hb => Memory.read_write_other _ v fun h => hb ?_⟩
  rw [List.mem_singleton]
  exact BitVec.eq_of_toNat_eq h

/-- A push (20_memory.md R58): the byte at the old stack pointer, the pointer one down, nothing else. -/
theorem State.push8_spec (s : State) (v : Byte) :
    StoredByte (stackAddr s.sp) v s.mem (s.push8 v).mem ∧ s.push8 v = { s with mem := (s.push8 v).mem, sp := s.sp - 1 } :=
  ⟨s.writeByte_stores _ v, rfl⟩

/-- A pull (20_memory.md R59): the byte at the new stack pointer, the pointer one up, nothing else. -/
theorem State.pull8_spec (s : State) :
    s.pull8 = (s.readByte (stackAddr (s.sp + 1)), { s with sp := s.sp + 1 }) := rfl

/-- The byte pushed is where the stack pointer pointed. -/
theorem State.readByte_push8 (s : State) (v : Byte) : (s.push8 v).readByte (stackAddr s.sp) = v :=
  (s.push8_spec v).1.1

/-- A push leaves every other byte. -/
theorem State.readByte_push8_other (s : State) (v : Byte) {a : Word} (h : a ≠ stackAddr s.sp) :
    (s.push8 v).readByte a = s.readByte a :=
  (s.push8_spec v).1.2 a (by simpa using h)

/-- A push of a word (20_memory.md R60): the high byte at the old stack pointer, the low
byte one below, the pointer two down, nothing else. -/
theorem State.push16_spec (s : State) (w : Word) :
    (s.push16 w).readByte (stackAddr s.sp) = hi8 w ∧ (s.push16 w).readByte (stackAddr (s.sp - 1)) = lo8 w ∧
    SameMemoryOutside [stackAddr s.sp, stackAddr (s.sp - 1)] s.mem (s.push16 w).mem ∧
    s.push16 w = { s with mem := (s.push16 w).mem, sp := s.sp - 2 } := by
  have hne : stackAddr s.sp ≠ stackAddr (s.sp - 1) := fun h => byte_sub_one_ne s.sp (stackAddr_inj.1 h).symm
  have h2 : s.sp - 2 = s.sp - 1 - 1 := by bv_omega
  refine ⟨?_, ?_, fun a ha => ?_, ?_⟩
  · exact ((s.push8 (hi8 w)).readByte_push8_other (lo8 w) hne).trans (s.readByte_push8 (hi8 w))
  · exact (s.push8 (hi8 w)).readByte_push8 (lo8 w)
  · simp only [List.mem_cons, List.not_mem_nil, or_false, not_or] at ha
    exact ((s.push8 (hi8 w)).readByte_push8_other (lo8 w) ha.2).trans (s.readByte_push8_other (hi8 w) ha.1)
  · rw [h2]; rfl

/-- A pull of a word (20_memory.md R61): the low byte at the first new stack pointer, the high byte at the second, the
pointer two up, nothing else. -/
theorem State.pull16_spec (s : State) :
    s.pull16 = (mk16 (s.readByte (stackAddr (s.sp + 2))) (s.readByte (stackAddr (s.sp + 1))), { s with sp := s.sp + 2 }) := by
  have h2 : s.sp + 2 = s.sp + 1 + 1 := by bv_omega
  rw [h2]; rfl

/-- A stop changes the run status and nothing else (60_exceptions.md R246). -/
theorem State.stop_spec (s : State) (st : RunStatus) : s.stop st = { s with run := st } := rfl

end Sys2Proof.Machine
end

