-- ==== Sys2Proof/Laws/Decode.lean ====
section
/-! SUPPORT. The laws of the opcode table and the decoder: what the decoder answers for each format, and which bytes have
no row. -/

namespace Sys2Proof

/-- The bytes with no row in the table are the 105 the rule lists (30_encoding.md R85). -/
theorem lookupOpcode_eq_none : ∀ op : Byte, lookupOpcode op = none ↔ op ∈ illegalBytes := by decide +kernel

theorem decode_f1 {op : Byte} {i : Instr} (h : lookupOpcode op = some (.f1 i)) (rest : List Byte) :
    decode (op :: rest) = .ok i rest := by
  simp [decode, h, OpForm.operandBytes, OpForm.build]

theorem decode_f2 {op : Byte} {make : Byte → Instr} (h : lookupOpcode op = some (.f2 make)) (b : Byte)
    (rest : List Byte) : decode (op :: b :: rest) = .ok (make b) rest := by
  simp [decode, h, OpForm.operandBytes, OpForm.build]

theorem decode_f3 {op : Byte} {make : Word → Instr} (h : lookupOpcode op = some (.f3 make)) (l u : Byte)
    (rest : List Byte) : decode (op :: l :: u :: rest) = .ok (make (mk16 u l)) rest := by
  simp [decode, h, OpForm.operandBytes, OpForm.build]

theorem encodes_f1 {op : Byte} {i : Instr} (h : lookupOpcode op = some (.f1 i)) : Machine.Encodes [op] i := decode_f1 h []

theorem encodes_f2 {op : Byte} {make : Byte → Instr} (h : lookupOpcode op = some (.f2 make)) (b : Byte) :
    Machine.Encodes [op, b] (make b) := decode_f2 h b []

/-- A three-byte instruction from the two bytes of its word (30_encoding.md R83). -/
theorem encodes_f3 {op : Byte} {make : Word → Instr} (h : lookupOpcode op = some (.f3 make)) (w : Word) :
    Machine.Encodes [op, lo8 w, hi8 w] (make w) := by
  have := decode_f3 h (lo8 w) (hi8 w) []
  rwa [Machine.mk16_hi8_lo8] at this

/-- What a decode that answers an instruction has read: a row of the table, and its operand bytes. -/
theorem decode_ok_cases {bs rest : List Byte} {i : Instr} (h : decode bs = .ok i rest) :
    ∃ op f tail, bs = op :: tail ∧ lookupOpcode op = some f ∧
      ((f = .f1 i ∧ rest = tail) ∨
       (∃ make b, f = .f2 make ∧ tail = b :: rest ∧ i = make b) ∨
       (∃ make l u, f = .f3 make ∧ tail = l :: u :: rest ∧ i = make (mk16 u l))) := by
  cases bs with
  | nil => simp [decode] at h
  | cons op tail =>
    cases hl : lookupOpcode op with
    | none => simp [decode, hl] at h
    | some f =>
      refine ⟨op, f, tail, rfl, hl, ?_⟩
      cases f with
      | f1 j => rw [decode_f1 hl] at h; cases h; exact .inl ⟨rfl, rfl⟩
      | f2 make =>
        cases tail with
        | nil => simp [decode, hl, OpForm.operandBytes] at h
        | cons b t => rw [decode_f2 hl] at h; cases h; exact .inr (.inl ⟨make, b, rfl, rfl, rfl⟩)
      | f3 make =>
        match tail with
        | [] => simp [decode, hl, OpForm.operandBytes] at h
        | [_] => simp [decode, hl, OpForm.operandBytes] at h
        | l :: u :: t => rw [decode_f3 hl] at h; cases h; exact .inr (.inr ⟨make, l, u, rfl, rfl, rfl⟩)

/-- A row that the lookup finds is a row of the table. -/
theorem mem_opcodeTable_of_lookup {op : Byte} {f : OpForm} (h : lookupOpcode op = some f) : (op, f) ∈ opcodeTable := by
  unfold lookupOpcode at h
  cases hf : opcodeTable.find? (fun row => row.1 == op) with
  | none => simp [hf] at h
  | some row =>
    obtain ⟨o, g⟩ := row
    have hmem := List.mem_of_find?_eq_some hf
    have hkey := List.find?_some hf
    simp [hf] at h hkey
    subst h hkey
    exact hmem

/-- A fact about every row of the table, family by family. -/
theorem forall_opcodeTable {P : Byte × OpForm → Prop} (h1 : ∀ r ∈ rowsLoadStore, P r) (h2 : ∀ r ∈ rowsArithmetic, P r)
    (h3 : ∀ r ∈ rowsLogic, P r) (h4 : ∀ r ∈ rowsShift, P r) (h5 : ∀ r ∈ rowsIncDec, P r)
    (h6 : ∀ r ∈ rowsControl, P r) (h7 : ∀ r ∈ rowsMisc, P r) : ∀ r ∈ opcodeTable, P r := by
  intro r hr
  simp only [opcodeTable, List.mem_append] at hr
  rcases hr with (((((hr | hr) | hr) | hr) | hr) | hr) | hr
  exacts [h1 r hr, h2 r hr, h3 r hr, h4 r hr, h5 r hr, h6 r hr, h7 r hr]

/-- What a row of the table says of the instruction it makes: the encoder gives its opcode byte and its operand bytes
back, its length is that of the format, and its mnemonic and mode do not depend on the operand (30_encoding.md R80,
R81). -/
def RowAgrees (r : Byte × OpForm) : Prop :=
  match r.2 with
  | .f1 i => encode i = [r.1] ∧ i.length = 1
  | .f2 make =>
    (∀ b, encode (make b) = [r.1, b]) ∧
    (∀ b c, (make b).mnemonic = (make c).mnemonic ∧ (make b).mode = (make c).mode) ∧ ∀ b, (make b).length = 2
  | .f3 make =>
    (∀ w, encode (make w) = [r.1, lo8 w, hi8 w]) ∧
    (∀ b c, (make b).mnemonic = (make c).mnemonic ∧ (make b).mode = (make c).mode) ∧ ∀ b, (make b).length = 3

theorem rowAgrees_of_mem : ∀ r ∈ opcodeTable, RowAgrees r := by
  apply forall_opcodeTable
  all_goals
    intro r hr
    fin_cases hr
    all_goals first
      | exact ⟨rfl, rfl⟩
      | exact ⟨fun _ => rfl, fun _ _ => ⟨rfl, rfl⟩, fun _ => rfl⟩
/-- No two rows of the table have the same opcode byte. -/
theorem opcodeTable_opcodes_distinct : (opcodeTable.map Prod.fst).Nodup := by decide +kernel

theorem opcodeTable_length : opcodeTable.length = 151 := by decide +kernel

end Sys2Proof
end

