-- ==== Sys2Proof/Laws/Engine.lean ====
section
/-! SUPPORT. What a step can do, said once: with the hook's answer in hand, a step of a running machine is a stop by the
hook, a stop at an illegal byte, or one instruction. -/

namespace Sys2Proof.Machine

/-- A step of a running machine, by the hook's answer and the byte at `PC` (40_engine_and_addressing.md R108). -/
theorem stepWith_running_cases {h : Hook} {s : State} (hr : s.run = .running) :
    ((h s.view).2 = .abort ∧ stepWith h s = .next ((s.withView (h s.view).1).stop .aborted)) ∨
    ((h s.view).2 = .goOn ∧ stepWith h s = fetchAndExecute (s.withView (h s.view).1)) := by
  cases hv : (h s.view).2 with
  | abort => exact .inl ⟨rfl, by simp [stepWith, hr, runStepWith, hv, State.raiseHookAbort]⟩
  | goOn => exact .inr ⟨rfl, by simp [stepWith, hr, runStepWith, hv]⟩

/-- What the fetch leads to (30_encoding.md R85): an illegal byte stops the machine there, any other byte runs an
instruction. -/
theorem fetchAndExecute_cases (s : State) :
    (s.readByte s.pc ∈ illegalBytes ∧ fetchAndExecute s = .next (s.stop (.faulted (s.readByte s.pc) s.pc))) ∨
    (∃ f, lookupOpcode (s.readByte s.pc) = some f ∧
      fetchAndExecute s = exec (f.build (s.readByte (s.nextPC 1)) (s.readByte (s.nextPC 2))) s) := by
  cases hl : lookupOpcode (s.readByte s.pc) with
  | none => exact .inl ⟨(lookupOpcode_eq_none _).1 hl, by simp [fetchAndExecute, hl, State.raiseDecodeFault]⟩
  | some f => exact .inr ⟨f, rfl, by simp [fetchAndExecute, hl]⟩

/-- A terminal status has no step (10_state.md R38). -/
theorem stepWith_terminal {h : Hook} {s : State} (ht : s.run.terminal = true) : ∃ r, stepWith h s = .fault r := by
  cases hr : s.run with
  | running => simp [hr, RunStatus.terminal] at ht
  | halted => exact ⟨_, by simp [stepWith, hr]; rfl⟩
  | faulted op a => exact ⟨_, by simp [stepWith, hr]; rfl⟩
  | aborted => exact ⟨_, by simp [stepWith, hr]; rfl⟩

/-- The step is a step with some hook, from the state with the pending answers that remain. -/
theorem step_eq_stepWith (s : State) : ∃ h, step s = stepWith h { s with hookCalls := s.hookCalls.tail } := by
  cases hq : s.hookCalls with
  | nil => exact ⟨defaultHook, by simp only [step, stepQueued, hq, List.tail_nil]; rw [← hq]⟩
  | cons c rest => exact ⟨c.toHook, by simp [step, stepQueued, hq]⟩

/-- A machine that is not running stays as it is. -/
theorem State.runFor_of_terminal {s : State} (ht : s.run.terminal = true) (n : Nat) : s.runFor n = s := by
  cases n with
  | zero => rfl
  | succ n => cases hr : s.run <;> simp_all [State.runFor, RunStatus.terminal]

/-- A halted machine's run is safe: it has no step that could report a failure. -/
theorem safeRun_of_halted {s : State} (h : s.run = .halted) : SafeRun s := fun n => by
  rw [State.runFor_of_terminal (by simp [h, RunStatus.terminal]) n, h]; rfl

end Sys2Proof.Machine
end

