-- ==== Sys2Proof/Laws/Flags.lean ====
section
/-! SUPPORT. The laws of the status register: what writing one flag does to every bit, and each flag computation in the
terms of Safety.lean. -/

namespace Sys2Proof.Machine

/-- What writing a flag does to every bit of the status byte (10_state.md R26). -/
@[simp] theorem getLsbD_putFlag (f : Flag) (b : Bool) (p : Byte) (k : Nat) :
    (putFlag f b p).getLsbD k = if k = f.bit then b else p.getLsbD k := by
  unfold putFlag
  by_cases hk : k < 8
  · obtain rfl | rfl | rfl | rfl | rfl | rfl | rfl | rfl : k = 0 ∨ k = 1 ∨ k = 2 ∨ k = 3 ∨ k = 4 ∨ k = 5 ∨ k = 6 ∨ k = 7 := by
      omega
    all_goals cases f <;> cases b <;> simp [Flag.bit]
  · have h1 : ∀ q : Byte, q.getLsbD k = false := fun q => BitVec.getLsbD_of_ge q k (by omega)
    have h2 : k ≠ f.bit := by cases f <;> simp [Flag.bit] <;> omega
    rw [h1, h1, if_neg h2]

/-- The same, in the form `simp` gives a bit of known number. -/
@[simp] theorem getElem_putFlag (f : Flag) (b : Bool) (p : Byte) (k : Nat) (hk : k < 8) :
    (putFlag f b p)[k] = if k = f.bit then b else p[k] := by
  simpa [BitVec.getLsbD_eq_getElem hk] using getLsbD_putFlag f b p k

@[simp] theorem getFlag_eq (f : Flag) (p : Byte) : getFlag f p = p.getLsbD f.bit := rfl

theorem SameBitsExcept.refl (ks : List Nat) (p : Byte) : SameBitsExcept ks p p := fun _ _ => rfl

theorem byte_beq_eq_decide (v w : Byte) : (v == w) = decide (v = w) := by
  cases h : v == w <;> simp_all

/-- `setZN` writes Z and N from its value and keeps the other six bits (10_state.md R35). -/
theorem setZN_from (v p : Byte) : ZNFrom v p (setZN v p) := by
  refine ⟨?_, ?_, fun k hk => ?_⟩
  · simp [setZN, Flag.bit, byte_beq_eq_decide]
  · simp [setZN, Flag.bit]
  · simp at hk; simp [setZN, Flag.bit, hk]

/-- The flags of a shift or rotate: C the bit lost, Z and N from the result (44_shift_rotate.md R170). -/
theorem shiftFlags_from (r : Byte × Bool) (p : Byte) : CZNFrom r.2 r.1 p (shiftFlags r p) := by
  refine ⟨?_, ?_, ?_, fun k hk => ?_⟩
  · simp [shiftFlags, setZN, Flag.bit]
  · simp [shiftFlags, setZN, Flag.bit, byte_beq_eq_decide]
  · simp [shiftFlags, setZN, Flag.bit]
  · simp at hk; simp [shiftFlags, setZN, Flag.bit, hk]

/-- The flags of a compare (42_arithmetic_compare.md R153). -/
theorem compareFlags_bits (reg m p : Byte) :
    (compareFlags reg m p).getLsbD 0 = decide (m.toNat ≤ reg.toNat) ∧
    (compareFlags reg m p).getLsbD 1 = decide (reg = m) ∧
    (compareFlags reg m p).getLsbD 7 = (reg - m).getLsbD 7 ∧ SameBitsExcept [0, 1, 7] p (compareFlags reg m p) := by
  refine ⟨?_, ?_, ?_, fun k hk => ?_⟩
  · simp [compareFlags, Flag.bit]
  · simp [compareFlags, Flag.bit, byte_beq_eq_decide]
  · simp [compareFlags, Flag.bit]
  · simp at hk; simp [compareFlags, Flag.bit, hk]

/-- The flags of a bit test (43_logic_bit.md R163). -/
theorem bitFlags_bits (a m p : Byte) :
    (bitFlags a m p).getLsbD 1 = decide (a &&& m = 0) ∧ (bitFlags a m p).getLsbD 6 = m.getLsbD 6 ∧
    (bitFlags a m p).getLsbD 7 = m.getLsbD 7 ∧ SameBitsExcept [1, 6, 7] p (bitFlags a m p) := by
  refine ⟨?_, ?_, ?_, fun k hk => ?_⟩
  · simp [bitFlags, Flag.bit, byte_beq_eq_decide]
  · simp [bitFlags, Flag.bit]
  · simp [bitFlags, Flag.bit]
  · simp at hk; simp [bitFlags, Flag.bit, hk]

/-- The flags of an addition with carry, from the sum (42_arithmetic_compare.md R151). -/
theorem sumFlags_bits (r : Sum8) (p : Byte) :
    let q := setZN r.value (putFlag .v r.overflow (putFlag .c r.carry p))
    q.getLsbD 0 = r.carry ∧ q.getLsbD 6 = r.overflow ∧ q.getLsbD 1 = decide (r.value = 0) ∧
    q.getLsbD 7 = r.value.getLsbD 7 ∧ SameBitsExcept [0, 1, 6, 7] p q := by
  refine ⟨?_, ?_, ?_, ?_, fun k hk => ?_⟩
  · simp [setZN, Flag.bit]
  · simp [setZN, Flag.bit]
  · simp [setZN, Flag.bit, byte_beq_eq_decide]
  · simp [setZN, Flag.bit]
  · simp at hk; simp [setZN, Flag.bit, hk]

/-- Writing one flag keeps the others. -/
theorem putFlag_same (f : Flag) (b : Bool) (p : Byte) : SameBitsExcept [f.bit] p (putFlag f b p) := by
  intro k hk; simp at hk; simp [hk]

/-- A status byte is its eight bits. -/
theorem eq_of_bits {p q : Byte} (h : ∀ k, p.getLsbD k = q.getLsbD k) : p = q :=
  BitVec.eq_of_getLsbD_eq fun k _ => h k

end Sys2Proof.Machine
end

