-- ==== Sys2Proof/Laws/Meanings.lean ====
section
/-! SUPPORT. What each shared operation of the instructions does, said once and whole: the state it answers, as the state
before with the fields it writes. -/

namespace Sys2Proof.Machine

/-! ## Operations that write one register or the flags -/

theorem opLda_eq (m : Addressing) (s : State) :
    opLda m s = { s with a := operand m s, p := setZN (operand m s) s.p, pc := s.nextPC m.mode.length } := rfl

theorem opLdx_eq (m : Addressing) (s : State) :
    opLdx m s = { s with x := operand m s, p := setZN (operand m s) s.p, pc := s.nextPC m.mode.length } := rfl

theorem opLdy_eq (m : Addressing) (s : State) :
    opLdy m s = { s with y := operand m s, p := setZN (operand m s) s.p, pc := s.nextPC m.mode.length } := rfl

theorem opLogic_eq (f : Byte → Byte → Byte) (m : Addressing) (s : State) :
    opLogic f m s =
      { s with a := f s.a (operand m s), p := setZN (f s.a (operand m s)) s.p, pc := s.nextPC m.mode.length } := rfl

theorem opCompare_eq (reg : Byte) (m : Addressing) (s : State) :
    opCompare reg m s = { s with p := compareFlags reg (operand m s) s.p, pc := s.nextPC m.mode.length } := rfl

theorem opBit_eq (m : Addressing) (s : State) :
    opBit m s = { s with p := bitFlags s.a (operand m s) s.p, pc := s.nextPC m.mode.length } := rfl

theorem opFlag_eq (f : Flag) (b : Bool) (s : State) :
    opFlag f b s = { s with p := putFlag f b s.p, pc := s.nextPC 1 } := rfl

/-- ADC and SBC are one operation on an addend: `A`, P and PC from the sum, nothing else (42_arithmetic_compare.md R151,
R152). -/
theorem takeSum_eq (r : Sum8) (s : State) :
    takeSum r s = { s with a := r.value, p := setZN r.value (putFlag .v r.overflow (putFlag .c r.carry s.p)) } := rfl

theorem opShiftA_eq (f : Byte → Bool → Byte × Bool) (s : State) :
    opShiftA f s =
      { s with a := (f s.a (getFlag .c s.p)).1, p := shiftFlags (f s.a (getFlag .c s.p)) s.p, pc := s.nextPC 1 } := rfl

/-! ## Operations that store -/

/-- A store: one byte at the effective address, and the program counter (41_load_store.md R143). -/
theorem opStore_spec (v : Byte) (m : Addressing) (s : State) :
    StoredByte (resolve m s) v s.mem (opStore v m s).mem ∧
    opStore v m s = { s with mem := (opStore v m s).mem, pc := s.nextPC m.mode.length } :=
  ⟨s.writeByte_stores _ v, rfl⟩

/-- A memory shift: one byte at the effective address, C, Z, N, and the program counter (44_shift_rotate.md R172). -/
theorem opShiftM_spec (f : Byte → Bool → Byte × Bool) (m : Addressing) (s : State) :
    let r := f (s.readByte (resolve m s)) (getFlag .c s.p)
    StoredByte (resolve m s) r.1 s.mem (opShiftM f m s).mem ∧
    opShiftM f m s =
      { s with mem := (opShiftM f m s).mem, p := shiftFlags r s.p, pc := s.nextPC m.mode.length } :=
  ⟨s.writeByte_stores _ _, rfl⟩

/-- INC and DEC: one byte at the effective address, Z, N, and the program counter (45_incdec.md R180, R181). -/
theorem opAddToMemory_spec (d : Byte) (m : Addressing) (s : State) :
    let r := s.readByte (resolve m s) + d
    StoredByte (resolve m s) r s.mem (opAddToMemory d m s).mem ∧
    opAddToMemory d m s =
      { s with mem := (opAddToMemory d m s).mem, p := setZN r s.p, pc := s.nextPC m.mode.length } :=
  ⟨s.writeByte_stores _ _, rfl⟩

/-! ## The program counter -/

/-- The address past an instruction, as a number (10_state.md R25). -/
theorem State.nextPC_toNat (s : State) (n : Nat) : (s.nextPC n).toNat = (s.pc.toNat + n) % 65536 := by
  simp [State.nextPC, BitVec.toNat_add]

/-- A displacement added to an address, as a number (46_control_flow.md R190). -/
theorem add_sext16_toNat (w : Word) (d : Byte) :
    ((w + sext16 d).toNat : Int) = ((w.toNat : Int) + d.toInt) % 65536 := by
  have h : (sext16 d).toInt = d.toInt := by
    simp only [sext16]
    exact BitVec.toInt_signExtend_of_le (by decide)
  have hs : ((sext16 d).toNat : Int) = d.toInt % 65536 := by
    rw [← h, BitVec.toInt_eq_toNat_cond]
    have := (sext16 d).isLt
    split <;> omega
  rw [BitVec.toNat_add]
  omega

/-! ## The shared operations in the terms of Safety.lean -/

/-- Setting or clearing a flag (47_flags_transfer_stack_misc.md R210). -/
theorem opFlag_writes (f : Flag) (b : Bool) (s : State) : WritesFlag s f.bit b (.next (opFlag f b s)) :=
  ⟨putFlag f b s.p, by rw [getLsbD_putFlag, if_pos rfl], putFlag_same f b s.p, rfl⟩

/-- A compare (42_arithmetic_compare.md R153). -/
theorem opCompare_compares (reg : Byte) (m : Addressing) (s : State) :
    Compares s reg (operand m s) (BitVec.ofNat 16 m.mode.length) (.next (opCompare reg m s)) := by
  obtain ⟨hc, hz, hn, hr⟩ := compareFlags_bits reg (operand m s) s.p
  refine ⟨_, hc, hz, hn.trans ?_, hr, rfl⟩
  congr 1
  apply BitVec.eq_of_toNat_eq
  have := reg.isLt
  have := (operand m s).isLt
  simp [BitVec.toNat_sub]
  omega

/-- A bit test (43_logic_bit.md R163). -/
theorem opBit_tests (m : Addressing) (s : State) :
    TestsBits s (operand m s) (BitVec.ofNat 16 m.mode.length) (.next (opBit m s)) := by
  obtain ⟨hz, hv, hn, hr⟩ := bitFlags_bits s.a (operand m s) s.p
  exact ⟨_, hz, hv, hn, hr, rfl⟩

/-- Taking a sum into `A` and advancing (42_arithmetic_compare.md R151): ADC takes the operand, SBC its complement. -/
theorem takeSum_adds (v : Byte) (n : Nat) (s : State) :
    AddsToA s v (BitVec.ofNat 16 n) (.next ((takeSum (addWithCarry s.a v (getFlag .c s.p)) s).advance n)) := by
  obtain ⟨hc, hv, hz, hn, hr⟩ := sumFlags_bits (addWithCarry s.a v (getFlag .c s.p)) s.p
  have he : BitVec.ofNat 8 ((s.a.toNat + v.toNat + (s.p.getLsbD 0).toNat) % 256) =
      (addWithCarry s.a v (getFlag .c s.p)).value := by
    apply BitVec.eq_of_toNat_eq
    simp [addWithCarry, Flag.bit]
  have hb : ∀ x : Byte, x.getLsbD 7 = decide (x &&& 0x80 ≠ 0) := by decide
  unfold AddsToA
  dsimp only
  rw [he]
  exact ⟨_, hc, hz, hn, hv.trans (hb _), hr, rfl⟩

/-- A branch, taken or not (46_control_flow.md R190). -/
theorem opBranch_branches (taken : Bool) (d : Byte) (s : State) : Branches s taken d (.next (opBranch taken d s)) := by
  cases taken with
  | false => exact ⟨_, (fun h => by cases h), fun _ => rfl, rfl⟩
  | true =>
    refine ⟨_, (fun _ => ?_), (fun h => by cases h), rfl⟩
    rw [add_sext16_toNat, State.nextPC_toNat]
    omega

end Sys2Proof.Machine
end

