-- ==== Sys2Proof/Laws/Effects.lean ====
section
/-! SUPPORT. What an instruction can do, said once for all of them: `Effect i f` lists the shared operations, as functions
of the state, each with the instructions that are it, and `exec_effect` says that every instruction is one of them, in
every state. A proof about all instructions is a case split on `Effect`, not on the 151 constructors. -/

namespace Sys2Proof.Machine

/-- What an instruction does to every state, by shared operation. -/
inductive Effect (i : Instr) : (State → State) → Prop where
  | lda (m : Addressing) (hn : i.mnemonic = .lda) (ha : i.addressing = some m) (hd : i.mode = m.mode) :
    Effect i (opLda m)
  | ldx (m : Addressing) (hn : i.mnemonic = .ldx) (ha : i.addressing = some m) (hd : i.mode = m.mode) :
    Effect i (opLdx m)
  | ldy (m : Addressing) (hn : i.mnemonic = .ldy) (ha : i.addressing = some m) (hd : i.mode = m.mode) :
    Effect i (opLdy m)
  | store (v : State → Byte) (m : Addressing)
    (hn : (i.mnemonic = .sta ∧ v = State.a) ∨ (i.mnemonic = .stx ∧ v = State.x) ∨ (i.mnemonic = .sty ∧ v = State.y))
    (ha : i.addressing = some m) (hd : i.mode = m.mode) : Effect i (fun s => opStore (v s) m s)
  | adc (m : Addressing) (hn : i.mnemonic = .adc) (ha : i.addressing = some m) (hd : i.mode = m.mode) :
    Effect i (opAdc m)
  | sbc (m : Addressing) (hn : i.mnemonic = .sbc) (ha : i.addressing = some m) (hd : i.mode = m.mode) :
    Effect i (opSbc m)
  | compare (reg : State → Byte) (m : Addressing)
    (hn : (i.mnemonic = .cmp ∧ reg = State.a) ∨ (i.mnemonic = .cpx ∧ reg = State.x) ∨ (i.mnemonic = .cpy ∧ reg = State.y))
    (ha : i.addressing = some m) (hd : i.mode = m.mode) : Effect i (fun s => opCompare (reg s) m s)
  | logic (f : Byte → Byte → Byte) (m : Addressing) (hn : i.mnemonic ∈ [Mnemonic.and, .ora, .eor])
    (ha : i.addressing = some m) (hd : i.mode = m.mode) : Effect i (opLogic f m)
  | bit (m : Addressing) (hn : i.mnemonic = .bit) (ha : i.addressing = some m) (hd : i.mode = m.mode) :
    Effect i (opBit m)
  | shiftA (f : Byte → Bool → Byte × Bool) (hn : i.mnemonic ∈ [Mnemonic.asl, .lsr, .rol, .ror]) (hd : i.mode = .acc) :
    Effect i (opShiftA f)
  | shiftM (f : Byte → Bool → Byte × Bool) (m : Addressing) (hn : i.mnemonic ∈ [Mnemonic.asl, .lsr, .rol, .ror])
    (ha : i.addressing = some m) (hd : i.mode = m.mode) : Effect i (opShiftM f m)
  | addToMemory (d : Byte) (m : Addressing) (hn : i.mnemonic ∈ [Mnemonic.inc, .dec])
    (ha : i.addressing = some m) (hd : i.mode = m.mode) : Effect i (opAddToMemory d m)
  | loadX (v : State → Byte) (hn : (i.mnemonic = .inx ∧ v = fun s => s.x + 1) ∨ (i.mnemonic = .dex ∧ v = fun s => s.x - 1) ∨
      (i.mnemonic = .tax ∧ v = State.a) ∨ (i.mnemonic = .tsx ∧ v = State.sp)) (hd : i.mode = .imp) :
    Effect i (fun s => (s.loadX (v s)).advance 1)
  | loadY (v : State → Byte) (hn : (i.mnemonic = .iny ∧ v = fun s => s.y + 1) ∨ (i.mnemonic = .dey ∧ v = fun s => s.y - 1) ∨
      (i.mnemonic = .tay ∧ v = State.a)) (hd : i.mode = .imp) : Effect i (fun s => (s.loadY (v s)).advance 1)
  | loadA (v : State → Byte) (hn : (i.mnemonic = .txa ∧ v = State.x) ∨ (i.mnemonic = .tya ∧ v = State.y))
    (hd : i.mode = .imp) :
    Effect i (fun s => (s.loadA (v s)).advance 1)
  | branch (f : Flag) (want : Bool) (d : Byte) (hf : f ∈ [Flag.c, .z, .n, .v])
    (hn : i.mnemonic ∈ [Mnemonic.bcc, .bcs, .beq, .bne, .bmi, .bpl, .bvc, .bvs]) (hd : i.mode = .rel) :
    Effect i (fun s => opBranch (getFlag f s.p == want) d s)
  | jmpAbs (w : Word) (hi : i = .jmpAbs w) : Effect i (fun s => s.setPC w)
  | jmpInd (w : Word) (hi : i = .jmpInd w) : Effect i (fun s => s.setPC (indirectTarget w s))
  | jsr (w : Word) (hi : i = .jsr w) : Effect i (opJsr w)
  | rts (hi : i = .rts) : Effect i opRts
  | rti (hi : i = .rti) : Effect i State.returnFromInterrupt
  | flag (f : Flag) (b : Bool) (hn : (i.mnemonic ∈ [Mnemonic.clc, .sec] ∧ f = .c) ∨
      (i.mnemonic ∈ [Mnemonic.cld, .sed] ∧ f = .d) ∨ (i.mnemonic ∈ [Mnemonic.cli, .sei] ∧ f = .i) ∨
      (i.mnemonic = .clv ∧ f = .v)) (hd : i.mode = .imp) : Effect i (opFlag f b)
  | txs (hi : i = .txs) : Effect i (fun s => (s.setSP s.x).advance 1)
  | pha (hi : i = .pha) : Effect i (fun s => (s.push8 s.a).advance 1)
  | php (hi : i = .php) : Effect i (fun s => (s.push8 s.p).advance 1)
  | pla (hi : i = .pla) : Effect i opPla
  | plp (hi : i = .plp) : Effect i opPlp
  | nop (hi : i = .nop) : Effect i (fun s => s.advance 1)
  | brk (hi : i = .brk) : Effect i (fun s => (s.advance 1).stop .halted)

theorem effect_branch_set {i : Instr} {f : Flag} {d : Byte}
    (he : ∀ s, exec i s = .next (opBranch (getFlag f s.p) d s)) (hf : f ∈ [Flag.c, .z, .n, .v])
    (hn : i.mnemonic ∈ [Mnemonic.bcc, .bcs, .beq, .bne, .bmi, .bpl, .bvc, .bvs]) (hd : i.mode = .rel) :
    ∃ g, (∀ s, exec i s = .next (g s)) ∧ Effect i g :=
  have e : ∀ b : Bool, (b == true) = b := by decide
  ⟨_, fun s => by rw [he, e], .branch f true d hf hn hd⟩

theorem effect_branch_clear {i : Instr} {f : Flag} {d : Byte}
    (he : ∀ s, exec i s = .next (opBranch (!getFlag f s.p) d s)) (hf : f ∈ [Flag.c, .z, .n, .v])
    (hn : i.mnemonic ∈ [Mnemonic.bcc, .bcs, .beq, .bne, .bmi, .bpl, .bvc, .bvs]) (hd : i.mode = .rel) :
    ∃ g, (∀ s, exec i s = .next (g s)) ∧ Effect i g :=
  have e : ∀ b : Bool, (b == false) = !b := by decide
  ⟨_, fun s => by rw [he, e], .branch f false d hf hn hd⟩

/-- Every instruction, in every state, answers the next state of its operation. -/
theorem exec_effect (i : Instr) : ∃ f, (∀ s, exec i s = .next (f s)) ∧ Effect i f :=
  match i with
  | .ldaImm v => ⟨_, fun _ => rfl, .lda (.imm v) rfl rfl rfl⟩
  | .ldaZp b => ⟨_, fun _ => rfl, .lda (.zp b) rfl rfl rfl⟩
  | .ldaZpx b => ⟨_, fun _ => rfl, .lda (.zpx b) rfl rfl rfl⟩
  | .ldaAbs w => ⟨_, fun _ => rfl, .lda (.abs w) rfl rfl rfl⟩
  | .ldaAbx w => ⟨_, fun _ => rfl, .lda (.abx w) rfl rfl rfl⟩
  | .ldaAby w => ⟨_, fun _ => rfl, .lda (.aby w) rfl rfl rfl⟩
  | .ldaIzx b => ⟨_, fun _ => rfl, .lda (.izx b) rfl rfl rfl⟩
  | .ldaIzy b => ⟨_, fun _ => rfl, .lda (.izy b) rfl rfl rfl⟩
  | .ldxImm v => ⟨_, fun _ => rfl, .ldx (.imm v) rfl rfl rfl⟩
  | .ldxZp b => ⟨_, fun _ => rfl, .ldx (.zp b) rfl rfl rfl⟩
  | .ldxZpy b => ⟨_, fun _ => rfl, .ldx (.zpy b) rfl rfl rfl⟩
  | .ldxAbs w => ⟨_, fun _ => rfl, .ldx (.abs w) rfl rfl rfl⟩
  | .ldxAby w => ⟨_, fun _ => rfl, .ldx (.aby w) rfl rfl rfl⟩
  | .ldyImm v => ⟨_, fun _ => rfl, .ldy (.imm v) rfl rfl rfl⟩
  | .ldyZp b => ⟨_, fun _ => rfl, .ldy (.zp b) rfl rfl rfl⟩
  | .ldyZpx b => ⟨_, fun _ => rfl, .ldy (.zpx b) rfl rfl rfl⟩
  | .ldyAbs w => ⟨_, fun _ => rfl, .ldy (.abs w) rfl rfl rfl⟩
  | .ldyAbx w => ⟨_, fun _ => rfl, .ldy (.abx w) rfl rfl rfl⟩
  | .staZp b => ⟨_, fun _ => rfl, .store _ (.zp b) (.inl ⟨rfl, rfl⟩) rfl rfl⟩
  | .staZpx b => ⟨_, fun _ => rfl, .store _ (.zpx b) (.inl ⟨rfl, rfl⟩) rfl rfl⟩
  | .staAbs w => ⟨_, fun _ => rfl, .store _ (.abs w) (.inl ⟨rfl, rfl⟩) rfl rfl⟩
  | .staAbx w => ⟨_, fun _ => rfl, .store _ (.abx w) (.inl ⟨rfl, rfl⟩) rfl rfl⟩
  | .staAby w => ⟨_, fun _ => rfl, .store _ (.aby w) (.inl ⟨rfl, rfl⟩) rfl rfl⟩
  | .staIzx b => ⟨_, fun _ => rfl, .store _ (.izx b) (.inl ⟨rfl, rfl⟩) rfl rfl⟩
  | .staIzy b => ⟨_, fun _ => rfl, .store _ (.izy b) (.inl ⟨rfl, rfl⟩) rfl rfl⟩
  | .stxZp b => ⟨_, fun _ => rfl, .store _ (.zp b) (.inr (.inl ⟨rfl, rfl⟩)) rfl rfl⟩
  | .stxZpy b => ⟨_, fun _ => rfl, .store _ (.zpy b) (.inr (.inl ⟨rfl, rfl⟩)) rfl rfl⟩
  | .stxAbs w => ⟨_, fun _ => rfl, .store _ (.abs w) (.inr (.inl ⟨rfl, rfl⟩)) rfl rfl⟩
  | .styZp b => ⟨_, fun _ => rfl, .store _ (.zp b) (.inr (.inr ⟨rfl, rfl⟩)) rfl rfl⟩
  | .styZpx b => ⟨_, fun _ => rfl, .store _ (.zpx b) (.inr (.inr ⟨rfl, rfl⟩)) rfl rfl⟩
  | .styAbs w => ⟨_, fun _ => rfl, .store _ (.abs w) (.inr (.inr ⟨rfl, rfl⟩)) rfl rfl⟩
  | .adcImm v => ⟨_, fun _ => rfl, .adc (.imm v) rfl rfl rfl⟩
  | .adcZp b => ⟨_, fun _ => rfl, .adc (.zp b) rfl rfl rfl⟩
  | .adcZpx b => ⟨_, fun _ => rfl, .adc (.zpx b) rfl rfl rfl⟩
  | .adcAbs w => ⟨_, fun _ => rfl, .adc (.abs w) rfl rfl rfl⟩
  | .adcAbx w => ⟨_, fun _ => rfl, .adc (.abx w) rfl rfl rfl⟩
  | .adcAby w => ⟨_, fun _ => rfl, .adc (.aby w) rfl rfl rfl⟩
  | .adcIzx b => ⟨_, fun _ => rfl, .adc (.izx b) rfl rfl rfl⟩
  | .adcIzy b => ⟨_, fun _ => rfl, .adc (.izy b) rfl rfl rfl⟩
  | .sbcImm v => ⟨_, fun _ => rfl, .sbc (.imm v) rfl rfl rfl⟩
  | .sbcZp b => ⟨_, fun _ => rfl, .sbc (.zp b) rfl rfl rfl⟩
  | .sbcZpx b => ⟨_, fun _ => rfl, .sbc (.zpx b) rfl rfl rfl⟩
  | .sbcAbs w => ⟨_, fun _ => rfl, .sbc (.abs w) rfl rfl rfl⟩
  | .sbcAbx w => ⟨_, fun _ => rfl, .sbc (.abx w) rfl rfl rfl⟩
  | .sbcAby w => ⟨_, fun _ => rfl, .sbc (.aby w) rfl rfl rfl⟩
  | .sbcIzx b => ⟨_, fun _ => rfl, .sbc (.izx b) rfl rfl rfl⟩
  | .sbcIzy b => ⟨_, fun _ => rfl, .sbc (.izy b) rfl rfl rfl⟩
  | .cmpImm v => ⟨_, fun _ => rfl, .compare _ (.imm v) (.inl ⟨rfl, rfl⟩) rfl rfl⟩
  | .cmpZp b => ⟨_, fun _ => rfl, .compare _ (.zp b) (.inl ⟨rfl, rfl⟩) rfl rfl⟩
  | .cmpZpx b => ⟨_, fun _ => rfl, .compare _ (.zpx b) (.inl ⟨rfl, rfl⟩) rfl rfl⟩
  | .cmpAbs w => ⟨_, fun _ => rfl, .compare _ (.abs w) (.inl ⟨rfl, rfl⟩) rfl rfl⟩
  | .cmpAbx w => ⟨_, fun _ => rfl, .compare _ (.abx w) (.inl ⟨rfl, rfl⟩) rfl rfl⟩
  | .cmpAby w => ⟨_, fun _ => rfl, .compare _ (.aby w) (.inl ⟨rfl, rfl⟩) rfl rfl⟩
  | .cmpIzx b => ⟨_, fun _ => rfl, .compare _ (.izx b) (.inl ⟨rfl, rfl⟩) rfl rfl⟩
  | .cmpIzy b => ⟨_, fun _ => rfl, .compare _ (.izy b) (.inl ⟨rfl, rfl⟩) rfl rfl⟩
  | .cpxImm v => ⟨_, fun _ => rfl, .compare _ (.imm v) (.inr (.inl ⟨rfl, rfl⟩)) rfl rfl⟩
  | .cpxZp b => ⟨_, fun _ => rfl, .compare _ (.zp b) (.inr (.inl ⟨rfl, rfl⟩)) rfl rfl⟩
  | .cpxAbs w => ⟨_, fun _ => rfl, .compare _ (.abs w) (.inr (.inl ⟨rfl, rfl⟩)) rfl rfl⟩
  | .cpyImm v => ⟨_, fun _ => rfl, .compare _ (.imm v) (.inr (.inr ⟨rfl, rfl⟩)) rfl rfl⟩
  | .cpyZp b => ⟨_, fun _ => rfl, .compare _ (.zp b) (.inr (.inr ⟨rfl, rfl⟩)) rfl rfl⟩
  | .cpyAbs w => ⟨_, fun _ => rfl, .compare _ (.abs w) (.inr (.inr ⟨rfl, rfl⟩)) rfl rfl⟩
  | .andImm v => ⟨_, fun _ => rfl, .logic _ (.imm v) (.head _) rfl rfl⟩
  | .andZp b => ⟨_, fun _ => rfl, .logic _ (.zp b) (.head _) rfl rfl⟩
  | .andZpx b => ⟨_, fun _ => rfl, .logic _ (.zpx b) (.head _) rfl rfl⟩
  | .andAbs w => ⟨_, fun _ => rfl, .logic _ (.abs w) (.head _) rfl rfl⟩
  | .andAbx w => ⟨_, fun _ => rfl, .logic _ (.abx w) (.head _) rfl rfl⟩
  | .andAby w => ⟨_, fun _ => rfl, .logic _ (.aby w) (.head _) rfl rfl⟩
  | .andIzx b => ⟨_, fun _ => rfl, .logic _ (.izx b) (.head _) rfl rfl⟩
  | .andIzy b => ⟨_, fun _ => rfl, .logic _ (.izy b) (.head _) rfl rfl⟩
  | .oraImm v => ⟨_, fun _ => rfl, .logic _ (.imm v) (.tail _ (.head _)) rfl rfl⟩
  | .oraZp b => ⟨_, fun _ => rfl, .logic _ (.zp b) (.tail _ (.head _)) rfl rfl⟩
  | .oraZpx b => ⟨_, fun _ => rfl, .logic _ (.zpx b) (.tail _ (.head _)) rfl rfl⟩
  | .oraAbs w => ⟨_, fun _ => rfl, .logic _ (.abs w) (.tail _ (.head _)) rfl rfl⟩
  | .oraAbx w => ⟨_, fun _ => rfl, .logic _ (.abx w) (.tail _ (.head _)) rfl rfl⟩
  | .oraAby w => ⟨_, fun _ => rfl, .logic _ (.aby w) (.tail _ (.head _)) rfl rfl⟩
  | .oraIzx b => ⟨_, fun _ => rfl, .logic _ (.izx b) (.tail _ (.head _)) rfl rfl⟩
  | .oraIzy b => ⟨_, fun _ => rfl, .logic _ (.izy b) (.tail _ (.head _)) rfl rfl⟩
  | .eorImm v => ⟨_, fun _ => rfl, .logic _ (.imm v) (.tail _ (.tail _ (.head _))) rfl rfl⟩
  | .eorZp b => ⟨_, fun _ => rfl, .logic _ (.zp b) (.tail _ (.tail _ (.head _))) rfl rfl⟩
  | .eorZpx b => ⟨_, fun _ => rfl, .logic _ (.zpx b) (.tail _ (.tail _ (.head _))) rfl rfl⟩
  | .eorAbs w => ⟨_, fun _ => rfl, .logic _ (.abs w) (.tail _ (.tail _ (.head _))) rfl rfl⟩
  | .eorAbx w => ⟨_, fun _ => rfl, .logic _ (.abx w) (.tail _ (.tail _ (.head _))) rfl rfl⟩
  | .eorAby w => ⟨_, fun _ => rfl, .logic _ (.aby w) (.tail _ (.tail _ (.head _))) rfl rfl⟩
  | .eorIzx b => ⟨_, fun _ => rfl, .logic _ (.izx b) (.tail _ (.tail _ (.head _))) rfl rfl⟩
  | .eorIzy b => ⟨_, fun _ => rfl, .logic _ (.izy b) (.tail _ (.tail _ (.head _))) rfl rfl⟩
  | .bitZp b => ⟨_, fun _ => rfl, .bit (.zp b) rfl rfl rfl⟩
  | .bitAbs w => ⟨_, fun _ => rfl, .bit (.abs w) rfl rfl rfl⟩
  | .aslAcc => ⟨_, fun _ => rfl, .shiftA _ (.head _) rfl⟩
  | .aslZp b => ⟨_, fun _ => rfl, .shiftM _ (.zp b) (.head _) rfl rfl⟩
  | .aslZpx b => ⟨_, fun _ => rfl, .shiftM _ (.zpx b) (.head _) rfl rfl⟩
  | .aslAbs w => ⟨_, fun _ => rfl, .shiftM _ (.abs w) (.head _) rfl rfl⟩
  | .aslAbx w => ⟨_, fun _ => rfl, .shiftM _ (.abx w) (.head _) rfl rfl⟩
  | .lsrAcc => ⟨_, fun _ => rfl, .shiftA _ (.tail _ (.head _)) rfl⟩
  | .lsrZp b => ⟨_, fun _ => rfl, .shiftM _ (.zp b) (.tail _ (.head _)) rfl rfl⟩
  | .lsrZpx b => ⟨_, fun _ => rfl, .shiftM _ (.zpx b) (.tail _ (.head _)) rfl rfl⟩
  | .lsrAbs w => ⟨_, fun _ => rfl, .shiftM _ (.abs w) (.tail _ (.head _)) rfl rfl⟩
  | .lsrAbx w => ⟨_, fun _ => rfl, .shiftM _ (.abx w) (.tail _ (.head _)) rfl rfl⟩
  | .rolAcc => ⟨_, fun _ => rfl, .shiftA _ (.tail _ (.tail _ (.head _))) rfl⟩
  | .rolZp b => ⟨_, fun _ => rfl, .shiftM _ (.zp b) (.tail _ (.tail _ (.head _))) rfl rfl⟩
  | .rolZpx b => ⟨_, fun _ => rfl, .shiftM _ (.zpx b) (.tail _ (.tail _ (.head _))) rfl rfl⟩
  | .rolAbs w => ⟨_, fun _ => rfl, .shiftM _ (.abs w) (.tail _ (.tail _ (.head _))) rfl rfl⟩
  | .rolAbx w => ⟨_, fun _ => rfl, .shiftM _ (.abx w) (.tail _ (.tail _ (.head _))) rfl rfl⟩
  | .rorAcc => ⟨_, fun _ => rfl, .shiftA _ (.tail _ (.tail _ (.tail _ (.head _)))) rfl⟩
  | .rorZp b => ⟨_, fun _ => rfl, .shiftM _ (.zp b) (.tail _ (.tail _ (.tail _ (.head _)))) rfl rfl⟩
  | .rorZpx b => ⟨_, fun _ => rfl, .shiftM _ (.zpx b) (.tail _ (.tail _ (.tail _ (.head _)))) rfl rfl⟩
  | .rorAbs w => ⟨_, fun _ => rfl, .shiftM _ (.abs w) (.tail _ (.tail _ (.tail _ (.head _)))) rfl rfl⟩
  | .rorAbx w => ⟨_, fun _ => rfl, .shiftM _ (.abx w) (.tail _ (.tail _ (.tail _ (.head _)))) rfl rfl⟩
  | .incZp b => ⟨_, fun _ => rfl, .addToMemory _ (.zp b) (.head _) rfl rfl⟩
  | .incZpx b => ⟨_, fun _ => rfl, .addToMemory _ (.zpx b) (.head _) rfl rfl⟩
  | .incAbs w => ⟨_, fun _ => rfl, .addToMemory _ (.abs w) (.head _) rfl rfl⟩
  | .incAbx w => ⟨_, fun _ => rfl, .addToMemory _ (.abx w) (.head _) rfl rfl⟩
  | .decZp b => ⟨_, fun _ => rfl, .addToMemory _ (.zp b) (.tail _ (.head _)) rfl rfl⟩
  | .decZpx b => ⟨_, fun _ => rfl, .addToMemory _ (.zpx b) (.tail _ (.head _)) rfl rfl⟩
  | .decAbs w => ⟨_, fun _ => rfl, .addToMemory _ (.abs w) (.tail _ (.head _)) rfl rfl⟩
  | .decAbx w => ⟨_, fun _ => rfl, .addToMemory _ (.abx w) (.tail _ (.head _)) rfl rfl⟩
  | .inx => ⟨_, fun _ => rfl, .loadX _ (.inl ⟨rfl, rfl⟩) rfl⟩
  | .iny => ⟨_, fun _ => rfl, .loadY _ (.inl ⟨rfl, rfl⟩) rfl⟩
  | .dex => ⟨_, fun _ => rfl, .loadX _ (.inr (.inl ⟨rfl, rfl⟩)) rfl⟩
  | .dey => ⟨_, fun _ => rfl, .loadY _ (.inr (.inl ⟨rfl, rfl⟩)) rfl⟩
  | .bcc _ => effect_branch_clear (fun _ => rfl) (.head _) (.head _) rfl
  | .bcs _ => effect_branch_set (fun _ => rfl) (.head _) (.tail _ (.head _)) rfl
  | .beq _ => effect_branch_set (fun _ => rfl) (.tail _ (.head _)) (.tail _ (.tail _ (.head _))) rfl
  | .bne _ => effect_branch_clear (fun _ => rfl) (.tail _ (.head _)) (.tail _ (.tail _ (.tail _ (.head _)))) rfl
  | .bmi _ => effect_branch_set (fun _ => rfl) (.tail _ (.tail _ (.head _))) (.tail _ (.tail _ (.tail _ (.tail _ (.head _))))) rfl
  | .bpl _ => effect_branch_clear (fun _ => rfl) (.tail _ (.tail _ (.head _))) (.tail _ (.tail _ (.tail _ (.tail _ (.tail _ (.head _)))))) rfl
  | .bvc _ => effect_branch_clear (fun _ => rfl) (.tail _ (.tail _ (.tail _ (.head _)))) (.tail _ (.tail _ (.tail _ (.tail _ (.tail _ (.tail _ (.head _))))))) rfl
  | .bvs _ => effect_branch_set (fun _ => rfl) (.tail _ (.tail _ (.tail _ (.head _)))) (.tail _ (.tail _ (.tail _ (.tail _ (.tail _ (.tail _ (.tail _ (.head _)))))))) rfl
  | .jmpAbs w => ⟨_, fun _ => rfl, .jmpAbs w rfl⟩
  | .jmpInd w => ⟨_, fun _ => rfl, .jmpInd w rfl⟩
  | .jsr w => ⟨_, fun _ => rfl, .jsr w rfl⟩
  | .rts => ⟨_, fun _ => rfl, .rts rfl⟩
  | .rti => ⟨_, fun _ => rfl, .rti rfl⟩
  | .clc => ⟨_, fun _ => rfl, .flag _ _ (.inl ⟨(.head _), rfl⟩) rfl⟩
  | .sec => ⟨_, fun _ => rfl, .flag _ _ (.inl ⟨(.tail _ (.head _)), rfl⟩) rfl⟩
  | .cld => ⟨_, fun _ => rfl, .flag _ _ (.inr (.inl ⟨(.head _), rfl⟩)) rfl⟩
  | .sed => ⟨_, fun _ => rfl, .flag _ _ (.inr (.inl ⟨(.tail _ (.head _)), rfl⟩)) rfl⟩
  | .cli => ⟨_, fun _ => rfl, .flag _ _ (.inr (.inr (.inl ⟨(.head _), rfl⟩))) rfl⟩
  | .sei => ⟨_, fun _ => rfl, .flag _ _ (.inr (.inr (.inl ⟨(.tail _ (.head _)), rfl⟩))) rfl⟩
  | .clv => ⟨_, fun _ => rfl, .flag _ _ (.inr (.inr (.inr ⟨rfl, rfl⟩))) rfl⟩
  | .tax => ⟨_, fun _ => rfl, .loadX _ (.inr (.inr (.inl ⟨rfl, rfl⟩))) rfl⟩
  | .txa => ⟨_, fun _ => rfl, .loadA _ (.inl ⟨rfl, rfl⟩) rfl⟩
  | .tay => ⟨_, fun _ => rfl, .loadY _ (.inr (.inr ⟨rfl, rfl⟩)) rfl⟩
  | .tya => ⟨_, fun _ => rfl, .loadA _ (.inr ⟨rfl, rfl⟩) rfl⟩
  | .tsx => ⟨_, fun _ => rfl, .loadX _ (.inr (.inr (.inr ⟨rfl, rfl⟩))) rfl⟩
  | .txs => ⟨_, fun _ => rfl, .txs rfl⟩
  | .pha => ⟨_, fun _ => rfl, .pha rfl⟩
  | .pla => ⟨_, fun _ => rfl, .pla rfl⟩
  | .php => ⟨_, fun _ => rfl, .php rfl⟩
  | .plp => ⟨_, fun _ => rfl, .plp rfl⟩
  | .nop => ⟨_, fun _ => rfl, .nop rfl⟩
  | .brk => ⟨_, fun _ => rfl, .brk rfl⟩

end Sys2Proof.Machine
end

