-- ==== Sys2Proof/Laws/PerInstr.lean ====
section
/-! SUPPORT. Statements about every instruction as syntax, one lemma per constructor.
`LegalEncoding`: the instruction is well formed (30_encoding.md R89) and its encoding has exactly the length its
mode gives it (R86). -/

namespace Sys2Proof.Laws

/-- The instruction's form is one of the legality matrix (R89), and it encodes to as many bytes as its mode says
(R86). -/
def LegalEncoding.Statement (i : Instr) : Prop :=
  i.wellFormed = true ∧ (encode i).length = i.length

theorem LegalEncoding.ldaImm (v : Byte) : LegalEncoding.Statement (.ldaImm v) := ⟨rfl, rfl⟩
theorem LegalEncoding.ldaZp (b : Byte) : LegalEncoding.Statement (.ldaZp b) := ⟨rfl, rfl⟩
theorem LegalEncoding.ldaZpx (b : Byte) : LegalEncoding.Statement (.ldaZpx b) := ⟨rfl, rfl⟩
theorem LegalEncoding.ldaAbs (w : Word) : LegalEncoding.Statement (.ldaAbs w) := ⟨rfl, rfl⟩
theorem LegalEncoding.ldaAbx (w : Word) : LegalEncoding.Statement (.ldaAbx w) := ⟨rfl, rfl⟩
theorem LegalEncoding.ldaAby (w : Word) : LegalEncoding.Statement (.ldaAby w) := ⟨rfl, rfl⟩
theorem LegalEncoding.ldaIzx (b : Byte) : LegalEncoding.Statement (.ldaIzx b) := ⟨rfl, rfl⟩
theorem LegalEncoding.ldaIzy (b : Byte) : LegalEncoding.Statement (.ldaIzy b) := ⟨rfl, rfl⟩
theorem LegalEncoding.ldxImm (v : Byte) : LegalEncoding.Statement (.ldxImm v) := ⟨rfl, rfl⟩
theorem LegalEncoding.ldxZp (b : Byte) : LegalEncoding.Statement (.ldxZp b) := ⟨rfl, rfl⟩
theorem LegalEncoding.ldxZpy (b : Byte) : LegalEncoding.Statement (.ldxZpy b) := ⟨rfl, rfl⟩
theorem LegalEncoding.ldxAbs (w : Word) : LegalEncoding.Statement (.ldxAbs w) := ⟨rfl, rfl⟩
theorem LegalEncoding.ldxAby (w : Word) : LegalEncoding.Statement (.ldxAby w) := ⟨rfl, rfl⟩
theorem LegalEncoding.ldyImm (v : Byte) : LegalEncoding.Statement (.ldyImm v) := ⟨rfl, rfl⟩
theorem LegalEncoding.ldyZp (b : Byte) : LegalEncoding.Statement (.ldyZp b) := ⟨rfl, rfl⟩
theorem LegalEncoding.ldyZpx (b : Byte) : LegalEncoding.Statement (.ldyZpx b) := ⟨rfl, rfl⟩
theorem LegalEncoding.ldyAbs (w : Word) : LegalEncoding.Statement (.ldyAbs w) := ⟨rfl, rfl⟩
theorem LegalEncoding.ldyAbx (w : Word) : LegalEncoding.Statement (.ldyAbx w) := ⟨rfl, rfl⟩
theorem LegalEncoding.staZp (b : Byte) : LegalEncoding.Statement (.staZp b) := ⟨rfl, rfl⟩
theorem LegalEncoding.staZpx (b : Byte) : LegalEncoding.Statement (.staZpx b) := ⟨rfl, rfl⟩
theorem LegalEncoding.staAbs (w : Word) : LegalEncoding.Statement (.staAbs w) := ⟨rfl, rfl⟩
theorem LegalEncoding.staAbx (w : Word) : LegalEncoding.Statement (.staAbx w) := ⟨rfl, rfl⟩
theorem LegalEncoding.staAby (w : Word) : LegalEncoding.Statement (.staAby w) := ⟨rfl, rfl⟩
theorem LegalEncoding.staIzx (b : Byte) : LegalEncoding.Statement (.staIzx b) := ⟨rfl, rfl⟩
theorem LegalEncoding.staIzy (b : Byte) : LegalEncoding.Statement (.staIzy b) := ⟨rfl, rfl⟩
theorem LegalEncoding.stxZp (b : Byte) : LegalEncoding.Statement (.stxZp b) := ⟨rfl, rfl⟩
theorem LegalEncoding.stxZpy (b : Byte) : LegalEncoding.Statement (.stxZpy b) := ⟨rfl, rfl⟩
theorem LegalEncoding.stxAbs (w : Word) : LegalEncoding.Statement (.stxAbs w) := ⟨rfl, rfl⟩
theorem LegalEncoding.styZp (b : Byte) : LegalEncoding.Statement (.styZp b) := ⟨rfl, rfl⟩
theorem LegalEncoding.styZpx (b : Byte) : LegalEncoding.Statement (.styZpx b) := ⟨rfl, rfl⟩
theorem LegalEncoding.styAbs (w : Word) : LegalEncoding.Statement (.styAbs w) := ⟨rfl, rfl⟩
theorem LegalEncoding.adcImm (v : Byte) : LegalEncoding.Statement (.adcImm v) := ⟨rfl, rfl⟩
theorem LegalEncoding.adcZp (b : Byte) : LegalEncoding.Statement (.adcZp b) := ⟨rfl, rfl⟩
theorem LegalEncoding.adcZpx (b : Byte) : LegalEncoding.Statement (.adcZpx b) := ⟨rfl, rfl⟩
theorem LegalEncoding.adcAbs (w : Word) : LegalEncoding.Statement (.adcAbs w) := ⟨rfl, rfl⟩
theorem LegalEncoding.adcAbx (w : Word) : LegalEncoding.Statement (.adcAbx w) := ⟨rfl, rfl⟩
theorem LegalEncoding.adcAby (w : Word) : LegalEncoding.Statement (.adcAby w) := ⟨rfl, rfl⟩
theorem LegalEncoding.adcIzx (b : Byte) : LegalEncoding.Statement (.adcIzx b) := ⟨rfl, rfl⟩
theorem LegalEncoding.adcIzy (b : Byte) : LegalEncoding.Statement (.adcIzy b) := ⟨rfl, rfl⟩
theorem LegalEncoding.sbcImm (v : Byte) : LegalEncoding.Statement (.sbcImm v) := ⟨rfl, rfl⟩
theorem LegalEncoding.sbcZp (b : Byte) : LegalEncoding.Statement (.sbcZp b) := ⟨rfl, rfl⟩
theorem LegalEncoding.sbcZpx (b : Byte) : LegalEncoding.Statement (.sbcZpx b) := ⟨rfl, rfl⟩
theorem LegalEncoding.sbcAbs (w : Word) : LegalEncoding.Statement (.sbcAbs w) := ⟨rfl, rfl⟩
theorem LegalEncoding.sbcAbx (w : Word) : LegalEncoding.Statement (.sbcAbx w) := ⟨rfl, rfl⟩
theorem LegalEncoding.sbcAby (w : Word) : LegalEncoding.Statement (.sbcAby w) := ⟨rfl, rfl⟩
theorem LegalEncoding.sbcIzx (b : Byte) : LegalEncoding.Statement (.sbcIzx b) := ⟨rfl, rfl⟩
theorem LegalEncoding.sbcIzy (b : Byte) : LegalEncoding.Statement (.sbcIzy b) := ⟨rfl, rfl⟩
theorem LegalEncoding.cmpImm (v : Byte) : LegalEncoding.Statement (.cmpImm v) := ⟨rfl, rfl⟩
theorem LegalEncoding.cmpZp (b : Byte) : LegalEncoding.Statement (.cmpZp b) := ⟨rfl, rfl⟩
theorem LegalEncoding.cmpZpx (b : Byte) : LegalEncoding.Statement (.cmpZpx b) := ⟨rfl, rfl⟩
theorem LegalEncoding.cmpAbs (w : Word) : LegalEncoding.Statement (.cmpAbs w) := ⟨rfl, rfl⟩
theorem LegalEncoding.cmpAbx (w : Word) : LegalEncoding.Statement (.cmpAbx w) := ⟨rfl, rfl⟩
theorem LegalEncoding.cmpAby (w : Word) : LegalEncoding.Statement (.cmpAby w) := ⟨rfl, rfl⟩
theorem LegalEncoding.cmpIzx (b : Byte) : LegalEncoding.Statement (.cmpIzx b) := ⟨rfl, rfl⟩
theorem LegalEncoding.cmpIzy (b : Byte) : LegalEncoding.Statement (.cmpIzy b) := ⟨rfl, rfl⟩
theorem LegalEncoding.cpxImm (v : Byte) : LegalEncoding.Statement (.cpxImm v) := ⟨rfl, rfl⟩
theorem LegalEncoding.cpxZp (b : Byte) : LegalEncoding.Statement (.cpxZp b) := ⟨rfl, rfl⟩
theorem LegalEncoding.cpxAbs (w : Word) : LegalEncoding.Statement (.cpxAbs w) := ⟨rfl, rfl⟩
theorem LegalEncoding.cpyImm (v : Byte) : LegalEncoding.Statement (.cpyImm v) := ⟨rfl, rfl⟩
theorem LegalEncoding.cpyZp (b : Byte) : LegalEncoding.Statement (.cpyZp b) := ⟨rfl, rfl⟩
theorem LegalEncoding.cpyAbs (w : Word) : LegalEncoding.Statement (.cpyAbs w) := ⟨rfl, rfl⟩
theorem LegalEncoding.andImm (v : Byte) : LegalEncoding.Statement (.andImm v) := ⟨rfl, rfl⟩
theorem LegalEncoding.andZp (b : Byte) : LegalEncoding.Statement (.andZp b) := ⟨rfl, rfl⟩
theorem LegalEncoding.andZpx (b : Byte) : LegalEncoding.Statement (.andZpx b) := ⟨rfl, rfl⟩
theorem LegalEncoding.andAbs (w : Word) : LegalEncoding.Statement (.andAbs w) := ⟨rfl, rfl⟩
theorem LegalEncoding.andAbx (w : Word) : LegalEncoding.Statement (.andAbx w) := ⟨rfl, rfl⟩
theorem LegalEncoding.andAby (w : Word) : LegalEncoding.Statement (.andAby w) := ⟨rfl, rfl⟩
theorem LegalEncoding.andIzx (b : Byte) : LegalEncoding.Statement (.andIzx b) := ⟨rfl, rfl⟩
theorem LegalEncoding.andIzy (b : Byte) : LegalEncoding.Statement (.andIzy b) := ⟨rfl, rfl⟩
theorem LegalEncoding.oraImm (v : Byte) : LegalEncoding.Statement (.oraImm v) := ⟨rfl, rfl⟩
theorem LegalEncoding.oraZp (b : Byte) : LegalEncoding.Statement (.oraZp b) := ⟨rfl, rfl⟩
theorem LegalEncoding.oraZpx (b : Byte) : LegalEncoding.Statement (.oraZpx b) := ⟨rfl, rfl⟩
theorem LegalEncoding.oraAbs (w : Word) : LegalEncoding.Statement (.oraAbs w) := ⟨rfl, rfl⟩
theorem LegalEncoding.oraAbx (w : Word) : LegalEncoding.Statement (.oraAbx w) := ⟨rfl, rfl⟩
theorem LegalEncoding.oraAby (w : Word) : LegalEncoding.Statement (.oraAby w) := ⟨rfl, rfl⟩
theorem LegalEncoding.oraIzx (b : Byte) : LegalEncoding.Statement (.oraIzx b) := ⟨rfl, rfl⟩
theorem LegalEncoding.oraIzy (b : Byte) : LegalEncoding.Statement (.oraIzy b) := ⟨rfl, rfl⟩
theorem LegalEncoding.eorImm (v : Byte) : LegalEncoding.Statement (.eorImm v) := ⟨rfl, rfl⟩
theorem LegalEncoding.eorZp (b : Byte) : LegalEncoding.Statement (.eorZp b) := ⟨rfl, rfl⟩
theorem LegalEncoding.eorZpx (b : Byte) : LegalEncoding.Statement (.eorZpx b) := ⟨rfl, rfl⟩
theorem LegalEncoding.eorAbs (w : Word) : LegalEncoding.Statement (.eorAbs w) := ⟨rfl, rfl⟩
theorem LegalEncoding.eorAbx (w : Word) : LegalEncoding.Statement (.eorAbx w) := ⟨rfl, rfl⟩
theorem LegalEncoding.eorAby (w : Word) : LegalEncoding.Statement (.eorAby w) := ⟨rfl, rfl⟩
theorem LegalEncoding.eorIzx (b : Byte) : LegalEncoding.Statement (.eorIzx b) := ⟨rfl, rfl⟩
theorem LegalEncoding.eorIzy (b : Byte) : LegalEncoding.Statement (.eorIzy b) := ⟨rfl, rfl⟩
theorem LegalEncoding.bitZp (b : Byte) : LegalEncoding.Statement (.bitZp b) := ⟨rfl, rfl⟩
theorem LegalEncoding.bitAbs (w : Word) : LegalEncoding.Statement (.bitAbs w) := ⟨rfl, rfl⟩
theorem LegalEncoding.aslAcc : LegalEncoding.Statement (.aslAcc) := ⟨rfl, rfl⟩
theorem LegalEncoding.aslZp (b : Byte) : LegalEncoding.Statement (.aslZp b) := ⟨rfl, rfl⟩
theorem LegalEncoding.aslZpx (b : Byte) : LegalEncoding.Statement (.aslZpx b) := ⟨rfl, rfl⟩
theorem LegalEncoding.aslAbs (w : Word) : LegalEncoding.Statement (.aslAbs w) := ⟨rfl, rfl⟩
theorem LegalEncoding.aslAbx (w : Word) : LegalEncoding.Statement (.aslAbx w) := ⟨rfl, rfl⟩
theorem LegalEncoding.lsrAcc : LegalEncoding.Statement (.lsrAcc) := ⟨rfl, rfl⟩
theorem LegalEncoding.lsrZp (b : Byte) : LegalEncoding.Statement (.lsrZp b) := ⟨rfl, rfl⟩
theorem LegalEncoding.lsrZpx (b : Byte) : LegalEncoding.Statement (.lsrZpx b) := ⟨rfl, rfl⟩
theorem LegalEncoding.lsrAbs (w : Word) : LegalEncoding.Statement (.lsrAbs w) := ⟨rfl, rfl⟩
theorem LegalEncoding.lsrAbx (w : Word) : LegalEncoding.Statement (.lsrAbx w) := ⟨rfl, rfl⟩
theorem LegalEncoding.rolAcc : LegalEncoding.Statement (.rolAcc) := ⟨rfl, rfl⟩
theorem LegalEncoding.rolZp (b : Byte) : LegalEncoding.Statement (.rolZp b) := ⟨rfl, rfl⟩
theorem LegalEncoding.rolZpx (b : Byte) : LegalEncoding.Statement (.rolZpx b) := ⟨rfl, rfl⟩
theorem LegalEncoding.rolAbs (w : Word) : LegalEncoding.Statement (.rolAbs w) := ⟨rfl, rfl⟩
theorem LegalEncoding.rolAbx (w : Word) : LegalEncoding.Statement (.rolAbx w) := ⟨rfl, rfl⟩
theorem LegalEncoding.rorAcc : LegalEncoding.Statement (.rorAcc) := ⟨rfl, rfl⟩
theorem LegalEncoding.rorZp (b : Byte) : LegalEncoding.Statement (.rorZp b) := ⟨rfl, rfl⟩
theorem LegalEncoding.rorZpx (b : Byte) : LegalEncoding.Statement (.rorZpx b) := ⟨rfl, rfl⟩
theorem LegalEncoding.rorAbs (w : Word) : LegalEncoding.Statement (.rorAbs w) := ⟨rfl, rfl⟩
theorem LegalEncoding.rorAbx (w : Word) : LegalEncoding.Statement (.rorAbx w) := ⟨rfl, rfl⟩
theorem LegalEncoding.incZp (b : Byte) : LegalEncoding.Statement (.incZp b) := ⟨rfl, rfl⟩
theorem LegalEncoding.incZpx (b : Byte) : LegalEncoding.Statement (.incZpx b) := ⟨rfl, rfl⟩
theorem LegalEncoding.incAbs (w : Word) : LegalEncoding.Statement (.incAbs w) := ⟨rfl, rfl⟩
theorem LegalEncoding.incAbx (w : Word) : LegalEncoding.Statement (.incAbx w) := ⟨rfl, rfl⟩
theorem LegalEncoding.decZp (b : Byte) : LegalEncoding.Statement (.decZp b) := ⟨rfl, rfl⟩
theorem LegalEncoding.decZpx (b : Byte) : LegalEncoding.Statement (.decZpx b) := ⟨rfl, rfl⟩
theorem LegalEncoding.decAbs (w : Word) : LegalEncoding.Statement (.decAbs w) := ⟨rfl, rfl⟩
theorem LegalEncoding.decAbx (w : Word) : LegalEncoding.Statement (.decAbx w) := ⟨rfl, rfl⟩
theorem LegalEncoding.inx : LegalEncoding.Statement (.inx) := ⟨rfl, rfl⟩
theorem LegalEncoding.iny : LegalEncoding.Statement (.iny) := ⟨rfl, rfl⟩
theorem LegalEncoding.dex : LegalEncoding.Statement (.dex) := ⟨rfl, rfl⟩
theorem LegalEncoding.dey : LegalEncoding.Statement (.dey) := ⟨rfl, rfl⟩
theorem LegalEncoding.bcc (d : Byte) : LegalEncoding.Statement (.bcc d) := ⟨rfl, rfl⟩
theorem LegalEncoding.bcs (d : Byte) : LegalEncoding.Statement (.bcs d) := ⟨rfl, rfl⟩
theorem LegalEncoding.beq (d : Byte) : LegalEncoding.Statement (.beq d) := ⟨rfl, rfl⟩
theorem LegalEncoding.bne (d : Byte) : LegalEncoding.Statement (.bne d) := ⟨rfl, rfl⟩
theorem LegalEncoding.bmi (d : Byte) : LegalEncoding.Statement (.bmi d) := ⟨rfl, rfl⟩
theorem LegalEncoding.bpl (d : Byte) : LegalEncoding.Statement (.bpl d) := ⟨rfl, rfl⟩
theorem LegalEncoding.bvc (d : Byte) : LegalEncoding.Statement (.bvc d) := ⟨rfl, rfl⟩
theorem LegalEncoding.bvs (d : Byte) : LegalEncoding.Statement (.bvs d) := ⟨rfl, rfl⟩
theorem LegalEncoding.jmpAbs (w : Word) : LegalEncoding.Statement (.jmpAbs w) := ⟨rfl, rfl⟩
theorem LegalEncoding.jmpInd (w : Word) : LegalEncoding.Statement (.jmpInd w) := ⟨rfl, rfl⟩
theorem LegalEncoding.jsr (w : Word) : LegalEncoding.Statement (.jsr w) := ⟨rfl, rfl⟩
theorem LegalEncoding.rts : LegalEncoding.Statement (.rts) := ⟨rfl, rfl⟩
theorem LegalEncoding.rti : LegalEncoding.Statement (.rti) := ⟨rfl, rfl⟩
theorem LegalEncoding.clc : LegalEncoding.Statement (.clc) := ⟨rfl, rfl⟩
theorem LegalEncoding.sec : LegalEncoding.Statement (.sec) := ⟨rfl, rfl⟩
theorem LegalEncoding.cld : LegalEncoding.Statement (.cld) := ⟨rfl, rfl⟩
theorem LegalEncoding.sed : LegalEncoding.Statement (.sed) := ⟨rfl, rfl⟩
theorem LegalEncoding.cli : LegalEncoding.Statement (.cli) := ⟨rfl, rfl⟩
theorem LegalEncoding.sei : LegalEncoding.Statement (.sei) := ⟨rfl, rfl⟩
theorem LegalEncoding.clv : LegalEncoding.Statement (.clv) := ⟨rfl, rfl⟩
theorem LegalEncoding.tax : LegalEncoding.Statement (.tax) := ⟨rfl, rfl⟩
theorem LegalEncoding.txa : LegalEncoding.Statement (.txa) := ⟨rfl, rfl⟩
theorem LegalEncoding.tay : LegalEncoding.Statement (.tay) := ⟨rfl, rfl⟩
theorem LegalEncoding.tya : LegalEncoding.Statement (.tya) := ⟨rfl, rfl⟩
theorem LegalEncoding.tsx : LegalEncoding.Statement (.tsx) := ⟨rfl, rfl⟩
theorem LegalEncoding.txs : LegalEncoding.Statement (.txs) := ⟨rfl, rfl⟩
theorem LegalEncoding.pha : LegalEncoding.Statement (.pha) := ⟨rfl, rfl⟩
theorem LegalEncoding.pla : LegalEncoding.Statement (.pla) := ⟨rfl, rfl⟩
theorem LegalEncoding.php : LegalEncoding.Statement (.php) := ⟨rfl, rfl⟩
theorem LegalEncoding.plp : LegalEncoding.Statement (.plp) := ⟨rfl, rfl⟩
theorem LegalEncoding.nop : LegalEncoding.Statement (.nop) := ⟨rfl, rfl⟩
theorem LegalEncoding.brk : LegalEncoding.Statement (.brk) := ⟨rfl, rfl⟩

end Sys2Proof.Laws
end

