-- ==== Sys2Proof/Tests/Slice0.lean ====
section
/-! SUPPORT. The model's own tests: words written out from the encodings of the opcode table, the single-step vectors of
95_test_vectors.md (each test's name carries the vector's number; the expected values are the file's), ill-formed
forms that the checks refuse, and for every statement with hypotheses a witness that meets them. -/

namespace Sys2Proof.Tests

open Sys2Proof.Machine

/-! ## Helpers -/

/-- The state with a list of bytes stored at rising addresses. -/
def image (s : State) : Word → List Byte → State
  | _, [] => s
  | a, v :: rest => image (s.writeByte a v) (a + 1) rest

/-- The state right after reset but for `PC`, some cells of memory, and the bytes of an instruction at `PC`. -/
def fresh (pc : Word) (bytes : List Byte) (cells : List (Word × Byte)) : State :=
  image (cells.foldl (fun s c => s.writeByte c.1 c.2) { State.reset with pc := pc }) pc bytes

/-- What a test looks at: A, X, Y, SP, P; PC; the run status; the bytes at some addresses. -/
def look (as : List Word) : Host.Outcome State Fault Refusal → Option (List Byte × Word × RunStatus × List Byte)
  | .next t => some ([t.a, t.x, t.y, t.sp, t.p], t.pc, t.run, as.map t.readByte)
  | .fault _ => none
  | .refused _ => none

/-- The reason a step was not taken. -/
def stuck : Host.Outcome State Fault Refusal → Option Fault
  | .next _ => none
  | .fault r => some r
  | .refused _ => none

/-! ## Decoding: the word of every row, its opcode bits as the table's "encoding" column has them -/

theorem test_decode_loadstore_1 :
    decode [0b10101001, 0x5A] = .ok (.ldaImm 0x5A) [] ∧
    decode [0b10100101, 0x5B] = .ok (.ldaZp 0x5B) [] ∧
    decode [0b10110101, 0x5C] = .ok (.ldaZpx 0x5C) [] ∧
    decode [0b10101101, 0x5D, 0xA4] = .ok (.ldaAbs 0xA45D) [] ∧
    decode [0b10111101, 0x5E, 0xA5] = .ok (.ldaAbx 0xA55E) [] ∧
    decode [0b10111001, 0x5F, 0xA6] = .ok (.ldaAby 0xA65F) [] ∧
    decode [0b10100001, 0x60] = .ok (.ldaIzx 0x60) [] ∧
    decode [0b10110001, 0x61] = .ok (.ldaIzy 0x61) [] ∧
    decode [0b10100010, 0x62] = .ok (.ldxImm 0x62) [] ∧
    decode [0b10100110, 0x63] = .ok (.ldxZp 0x63) [] ∧
    decode [0b10110110, 0x64] = .ok (.ldxZpy 0x64) [] ∧
    decode [0b10101110, 0x65, 0xAC] = .ok (.ldxAbs 0xAC65) [] ∧
    decode [0b10111110, 0x66, 0xAD] = .ok (.ldxAby 0xAD66) [] := by decide

theorem test_decode_loadstore_2 :
    decode [0b10100000, 0x67] = .ok (.ldyImm 0x67) [] ∧
    decode [0b10100100, 0x68] = .ok (.ldyZp 0x68) [] ∧
    decode [0b10110100, 0x69] = .ok (.ldyZpx 0x69) [] ∧
    decode [0b10101100, 0x6A, 0xB1] = .ok (.ldyAbs 0xB16A) [] ∧
    decode [0b10111100, 0x6B, 0xB2] = .ok (.ldyAbx 0xB26B) [] ∧
    decode [0b10000101, 0x6C] = .ok (.staZp 0x6C) [] ∧
    decode [0b10010101, 0x6D] = .ok (.staZpx 0x6D) [] ∧
    decode [0b10001101, 0x6E, 0xB5] = .ok (.staAbs 0xB56E) [] ∧
    decode [0b10011101, 0x6F, 0xB6] = .ok (.staAbx 0xB66F) [] ∧
    decode [0b10011001, 0x70, 0xB7] = .ok (.staAby 0xB770) [] ∧
    decode [0b10000001, 0x71] = .ok (.staIzx 0x71) [] ∧
    decode [0b10010001, 0x72] = .ok (.staIzy 0x72) [] ∧
    decode [0b10000110, 0x73] = .ok (.stxZp 0x73) [] := by decide

theorem test_decode_loadstore_3 :
    decode [0b10010110, 0x74] = .ok (.stxZpy 0x74) [] ∧
    decode [0b10001110, 0x75, 0xBC] = .ok (.stxAbs 0xBC75) [] ∧
    decode [0b10000100, 0x76] = .ok (.styZp 0x76) [] ∧
    decode [0b10010100, 0x77] = .ok (.styZpx 0x77) [] ∧
    decode [0b10001100, 0x78, 0xBF] = .ok (.styAbs 0xBF78) [] := by decide

theorem test_decode_arithmetic_1 :
    decode [0b01101001, 0x5A] = .ok (.adcImm 0x5A) [] ∧
    decode [0b01100101, 0x5B] = .ok (.adcZp 0x5B) [] ∧
    decode [0b01110101, 0x5C] = .ok (.adcZpx 0x5C) [] ∧
    decode [0b01101101, 0x5D, 0xA4] = .ok (.adcAbs 0xA45D) [] ∧
    decode [0b01111101, 0x5E, 0xA5] = .ok (.adcAbx 0xA55E) [] ∧
    decode [0b01111001, 0x5F, 0xA6] = .ok (.adcAby 0xA65F) [] ∧
    decode [0b01100001, 0x60] = .ok (.adcIzx 0x60) [] ∧
    decode [0b01110001, 0x61] = .ok (.adcIzy 0x61) [] ∧
    decode [0b11101001, 0x62] = .ok (.sbcImm 0x62) [] ∧
    decode [0b11100101, 0x63] = .ok (.sbcZp 0x63) [] ∧
    decode [0b11110101, 0x64] = .ok (.sbcZpx 0x64) [] ∧
    decode [0b11101101, 0x65, 0xAC] = .ok (.sbcAbs 0xAC65) [] ∧
    decode [0b11111101, 0x66, 0xAD] = .ok (.sbcAbx 0xAD66) [] := by decide

theorem test_decode_arithmetic_2 :
    decode [0b11111001, 0x67, 0xAE] = .ok (.sbcAby 0xAE67) [] ∧
    decode [0b11100001, 0x68] = .ok (.sbcIzx 0x68) [] ∧
    decode [0b11110001, 0x69] = .ok (.sbcIzy 0x69) [] ∧
    decode [0b11001001, 0x6A] = .ok (.cmpImm 0x6A) [] ∧
    decode [0b11000101, 0x6B] = .ok (.cmpZp 0x6B) [] ∧
    decode [0b11010101, 0x6C] = .ok (.cmpZpx 0x6C) [] ∧
    decode [0b11001101, 0x6D, 0xB4] = .ok (.cmpAbs 0xB46D) [] ∧
    decode [0b11011101, 0x6E, 0xB5] = .ok (.cmpAbx 0xB56E) [] ∧
    decode [0b11011001, 0x6F, 0xB6] = .ok (.cmpAby 0xB66F) [] ∧
    decode [0b11000001, 0x70] = .ok (.cmpIzx 0x70) [] ∧
    decode [0b11010001, 0x71] = .ok (.cmpIzy 0x71) [] ∧
    decode [0b11100000, 0x72] = .ok (.cpxImm 0x72) [] ∧
    decode [0b11100100, 0x73] = .ok (.cpxZp 0x73) [] := by decide

theorem test_decode_arithmetic_3 :
    decode [0b11101100, 0x74, 0xBB] = .ok (.cpxAbs 0xBB74) [] ∧
    decode [0b11000000, 0x75] = .ok (.cpyImm 0x75) [] ∧
    decode [0b11000100, 0x76] = .ok (.cpyZp 0x76) [] ∧
    decode [0b11001100, 0x77, 0xBE] = .ok (.cpyAbs 0xBE77) [] := by decide

theorem test_decode_logic_1 :
    decode [0b00101001, 0x5A] = .ok (.andImm 0x5A) [] ∧
    decode [0b00100101, 0x5B] = .ok (.andZp 0x5B) [] ∧
    decode [0b00110101, 0x5C] = .ok (.andZpx 0x5C) [] ∧
    decode [0b00101101, 0x5D, 0xA4] = .ok (.andAbs 0xA45D) [] ∧
    decode [0b00111101, 0x5E, 0xA5] = .ok (.andAbx 0xA55E) [] ∧
    decode [0b00111001, 0x5F, 0xA6] = .ok (.andAby 0xA65F) [] ∧
    decode [0b00100001, 0x60] = .ok (.andIzx 0x60) [] ∧
    decode [0b00110001, 0x61] = .ok (.andIzy 0x61) [] ∧
    decode [0b00001001, 0x62] = .ok (.oraImm 0x62) [] ∧
    decode [0b00000101, 0x63] = .ok (.oraZp 0x63) [] ∧
    decode [0b00010101, 0x64] = .ok (.oraZpx 0x64) [] ∧
    decode [0b00001101, 0x65, 0xAC] = .ok (.oraAbs 0xAC65) [] ∧
    decode [0b00011101, 0x66, 0xAD] = .ok (.oraAbx 0xAD66) [] := by decide

theorem test_decode_logic_2 :
    decode [0b00011001, 0x67, 0xAE] = .ok (.oraAby 0xAE67) [] ∧
    decode [0b00000001, 0x68] = .ok (.oraIzx 0x68) [] ∧
    decode [0b00010001, 0x69] = .ok (.oraIzy 0x69) [] ∧
    decode [0b01001001, 0x6A] = .ok (.eorImm 0x6A) [] ∧
    decode [0b01000101, 0x6B] = .ok (.eorZp 0x6B) [] ∧
    decode [0b01010101, 0x6C] = .ok (.eorZpx 0x6C) [] ∧
    decode [0b01001101, 0x6D, 0xB4] = .ok (.eorAbs 0xB46D) [] ∧
    decode [0b01011101, 0x6E, 0xB5] = .ok (.eorAbx 0xB56E) [] ∧
    decode [0b01011001, 0x6F, 0xB6] = .ok (.eorAby 0xB66F) [] ∧
    decode [0b01000001, 0x70] = .ok (.eorIzx 0x70) [] ∧
    decode [0b01010001, 0x71] = .ok (.eorIzy 0x71) [] ∧
    decode [0b00100100, 0x72] = .ok (.bitZp 0x72) [] ∧
    decode [0b00101100, 0x73, 0xBA] = .ok (.bitAbs 0xBA73) [] := by decide

theorem test_decode_shift_1 :
    decode [0b00001010] = .ok .aslAcc [] ∧
    decode [0b00000110, 0x5B] = .ok (.aslZp 0x5B) [] ∧
    decode [0b00010110, 0x5C] = .ok (.aslZpx 0x5C) [] ∧
    decode [0b00001110, 0x5D, 0xA4] = .ok (.aslAbs 0xA45D) [] ∧
    decode [0b00011110, 0x5E, 0xA5] = .ok (.aslAbx 0xA55E) [] ∧
    decode [0b01001010] = .ok .lsrAcc [] ∧
    decode [0b01000110, 0x60] = .ok (.lsrZp 0x60) [] ∧
    decode [0b01010110, 0x61] = .ok (.lsrZpx 0x61) [] ∧
    decode [0b01001110, 0x62, 0xA9] = .ok (.lsrAbs 0xA962) [] ∧
    decode [0b01011110, 0x63, 0xAA] = .ok (.lsrAbx 0xAA63) [] ∧
    decode [0b00101010] = .ok .rolAcc [] ∧
    decode [0b00100110, 0x65] = .ok (.rolZp 0x65) [] ∧
    decode [0b00110110, 0x66] = .ok (.rolZpx 0x66) [] := by decide

theorem test_decode_shift_2 :
    decode [0b00101110, 0x67, 0xAE] = .ok (.rolAbs 0xAE67) [] ∧
    decode [0b00111110, 0x68, 0xAF] = .ok (.rolAbx 0xAF68) [] ∧
    decode [0b01101010] = .ok .rorAcc [] ∧
    decode [0b01100110, 0x6A] = .ok (.rorZp 0x6A) [] ∧
    decode [0b01110110, 0x6B] = .ok (.rorZpx 0x6B) [] ∧
    decode [0b01101110, 0x6C, 0xB3] = .ok (.rorAbs 0xB36C) [] ∧
    decode [0b01111110, 0x6D, 0xB4] = .ok (.rorAbx 0xB46D) [] := by decide

theorem test_decode_incdec_1 :
    decode [0b11100110, 0x5A] = .ok (.incZp 0x5A) [] ∧
    decode [0b11110110, 0x5B] = .ok (.incZpx 0x5B) [] ∧
    decode [0b11101110, 0x5C, 0xA3] = .ok (.incAbs 0xA35C) [] ∧
    decode [0b11111110, 0x5D, 0xA4] = .ok (.incAbx 0xA45D) [] ∧
    decode [0b11000110, 0x5E] = .ok (.decZp 0x5E) [] ∧
    decode [0b11010110, 0x5F] = .ok (.decZpx 0x5F) [] ∧
    decode [0b11001110, 0x60, 0xA7] = .ok (.decAbs 0xA760) [] ∧
    decode [0b11011110, 0x61, 0xA8] = .ok (.decAbx 0xA861) [] ∧
    decode [0b11101000] = .ok .inx [] ∧
    decode [0b11001000] = .ok .iny [] ∧
    decode [0b11001010] = .ok .dex [] ∧
    decode [0b10001000] = .ok .dey [] := by decide

theorem test_decode_control_1 :
    decode [0b10010000, 0x5A] = .ok (.bcc 0x5A) [] ∧
    decode [0b10110000, 0x5B] = .ok (.bcs 0x5B) [] ∧
    decode [0b11110000, 0x5C] = .ok (.beq 0x5C) [] ∧
    decode [0b11010000, 0x5D] = .ok (.bne 0x5D) [] ∧
    decode [0b00110000, 0x5E] = .ok (.bmi 0x5E) [] ∧
    decode [0b00010000, 0x5F] = .ok (.bpl 0x5F) [] ∧
    decode [0b01010000, 0x60] = .ok (.bvc 0x60) [] ∧
    decode [0b01110000, 0x61] = .ok (.bvs 0x61) [] ∧
    decode [0b01001100, 0x62, 0xA9] = .ok (.jmpAbs 0xA962) [] ∧
    decode [0b01101100, 0x63, 0xAA] = .ok (.jmpInd 0xAA63) [] ∧
    decode [0b00100000, 0x64, 0xAB] = .ok (.jsr 0xAB64) [] ∧
    decode [0b01100000] = .ok .rts [] ∧
    decode [0b01000000] = .ok .rti [] := by decide

theorem test_decode_misc_1 :
    decode [0b00011000] = .ok .clc [] ∧
    decode [0b00111000] = .ok .sec [] ∧
    decode [0b11011000] = .ok .cld [] ∧
    decode [0b11111000] = .ok .sed [] ∧
    decode [0b01011000] = .ok .cli [] ∧
    decode [0b01111000] = .ok .sei [] ∧
    decode [0b10111000] = .ok .clv [] ∧
    decode [0b10101010] = .ok .tax [] ∧
    decode [0b10001010] = .ok .txa [] ∧
    decode [0b10101000] = .ok .tay [] ∧
    decode [0b10011000] = .ok .tya [] ∧
    decode [0b10111010] = .ok .tsx [] ∧
    decode [0b10011010] = .ok .txs [] := by decide

theorem test_decode_misc_2 :
    decode [0b01001000] = .ok .pha [] ∧
    decode [0b01101000] = .ok .pla [] ∧
    decode [0b00001000] = .ok .php [] ∧
    decode [0b00101000] = .ok .plp [] ∧
    decode [0b11101010] = .ok .nop [] ∧
    decode [0b00000000] = .ok .brk [] := by decide

theorem test_decode_refuses_illegal_and_truncated :
    decode [0x02] = .illegalOpcode 0x02 ∧ decode [0xFF, 0x00, 0x00] = .illegalOpcode 0xFF ∧
    decode [] = .truncated ∧ decode [0xA9] = .truncated ∧ decode [0xAD, 0x34] = .truncated ∧
    decode [0xEA, 0x02] = .ok .nop [0x02] := by decide

/-- Bit 0 of a table word is the least significant bit of the first byte; bits above `nbits` are 0. -/
theorem test_decodeTableWord :
    decodeTableWord 24 0x1234BD = some (.ldaAbx 0x1234) ∧ decodeTableWord 16 0x80D0 = some (.bne 0x80) ∧
    decodeTableWord 8 0x0000A9 = some (.ldaImm 0x00) ∧ decodeTableWord 8 0x5AA9 = some (.ldaImm 0x00) ∧
    decodeTableWord 8 0x00 = some .brk ∧ decodeTableWord 8 0x02 = none := by decide

theorem test_withFetchWord_runs_the_word :
    look [] (step (State.reset.withFetchWord 16 0x80A9)) = some ([0x80, 0x00, 0x00, 0xFD, 0x80], 0x0002, .running, []) ∧
    look [] (step (State.powerOn.withFetchWord 8 0x00)) = some ([0x00, 0x00, 0x00, 0x00, 0x00], 0x0001, .halted, []) := by
  decide

/-! ## Forms the checks refuse -/

/-- The legality matrix has no such pair (30_encoding.md R89). -/
theorem test_illFormed_pair_refused :
    formOk .sta .imm (some (.imm 0x00)) = false ∧ formOk .bit .imm (some (.imm 0x00)) = false ∧
    formOk .ldx .zpx (some (.zpx 0x00)) = false ∧ formOk .stx .aby (some (.aby 0x0000)) = false ∧
    formOk .jsr .ind none = false ∧ formOk .inc .acc none = false := by decide

/-- The addressing form is of another mode than the pair's. -/
theorem test_illFormed_addressing_mismatch_refused : formOk .lda .zp (some (.abs 0x0010)) = false := by decide

/-- A mode that needs an effective address without one, and one that has none with one. -/
theorem test_illFormed_addressing_presence_refused :
    formOk .lda .zp none = false ∧ formOk .bne .rel (some (.zp 0x10)) = false := by decide

theorem test_wellFormed_accepted :
    formOk .lda .zp (some (.zp 0x10)) = true ∧ formOk .bne .rel none = true := by decide

/-- The canonical form refuses a listed zero, a falling or repeated address, and one past the address space. -/
theorem test_memory_wf_refuses :
    Memory.wf [(0x10, 0x00)] = false ∧ Memory.wf [(0x11, 0x01), (0x10, 0x01)] = false ∧
    Memory.wf [(0x10, 0x01), (0x10, 0x02)] = false ∧ Memory.wf [(0x10000, 0x01)] = false ∧
    Memory.wf [(0x10, 0x01), (0xFFFF, 0x02)] = true := by decide

/-! ## One step each: the vectors of 95_test_vectors.md -/

theorem test_v1_lda_imm :
    look [] (step (fresh 0x8000 [0xA9, 0x80] [])) =
      some ([0x80, 0x00, 0x00, 0xFD, 0x80], 0x8002, .running, []) := by decide

theorem test_v2_lda_zp :
    look [] (step (fresh 0x8000 [0xA5, 0x10] [(0x0010, 0x37)])) =
      some ([0x37, 0x00, 0x00, 0xFD, 0x00], 0x8002, .running, []) := by decide

theorem test_v3_lda_zpx :
    look [] (step { fresh 0x8000 [0xB5, 0xFF] [(0x0001, 0x99), (0x0101, 0x11)] with x := 0x02 }) =
      some ([0x99, 0x02, 0x00, 0xFD, 0x80], 0x8002, .running, []) := by decide

theorem test_v4_ldx_zpy :
    look [] (step { fresh 0x8000 [0xB6, 0xF0] [(0x0010, 0x44), (0x0110, 0x11)] with y := 0x20 }) =
      some ([0x00, 0x44, 0x20, 0xFD, 0x00], 0x8002, .running, []) := by decide

theorem test_v5_lda_abs :
    look [] (step (fresh 0x8000 [0xAD, 0x34, 0x12] [(0x1234, 0x5A)])) =
      some ([0x5A, 0x00, 0x00, 0xFD, 0x00], 0x8003, .running, []) := by decide

theorem test_v6_lda_abx :
    look [] (step { fresh 0x8000 [0xBD, 0xFF, 0xFF] [(0x0001, 0x77)] with x := 0x02 }) =
      some ([0x77, 0x02, 0x00, 0xFD, 0x00], 0x8003, .running, []) := by decide

theorem test_v7_lda_aby :
    look [] (step { fresh 0x8000 [0xB9, 0xF0, 0x12] [(0x1310, 0x66)] with y := 0x20 }) =
      some ([0x66, 0x00, 0x20, 0xFD, 0x00], 0x8003, .running, []) := by decide

theorem test_v8_lda_izx :
    look [] (step { fresh 0x8000 [0xA1, 0x20] [(0x0024, 0x74), (0x0025, 0x20), (0x2074, 0xAB)] with x := 0x04 }) =
      some ([0xAB, 0x04, 0x00, 0xFD, 0x80], 0x8002, .running, []) := by decide

theorem test_v9_lda_izx :
    look [] (step { fresh 0x8000 [0xA1, 0xFE] [(0x00FF, 0x34), (0x0000, 0x12), (0x0100, 0x99), (0x1234, 0xCD), (0x9934, 0xEE)] with x := 0x01 }) =
      some ([0xCD, 0x01, 0x00, 0xFD, 0x80], 0x8002, .running, []) := by decide

theorem test_v10_lda_izy :
    look [] (step { fresh 0x8000 [0xB1, 0x86] [(0x0086, 0x28), (0x0087, 0x40), (0x4038, 0xEE)] with y := 0x10 }) =
      some ([0xEE, 0x00, 0x10, 0xFD, 0x80], 0x8002, .running, []) := by decide

theorem test_v11_lda_izy :
    look [] (step { fresh 0x8000 [0xB1, 0xFF] [(0x00FF, 0xFF), (0x0000, 0x7F), (0x0100, 0x20)] with y := 0x01 }) =
      some ([0xB1, 0x00, 0x01, 0xFD, 0x80], 0x8002, .running, []) := by decide

theorem test_v12_lda_imm :
    look [] (step (fresh 0xFFFF [0xA9, 0x42] [])) =
      some ([0x42, 0x00, 0x00, 0xFD, 0x00], 0x0001, .running, []) := by decide

theorem test_v13_ldy_imm :
    look [] (step { fresh 0x8000 [0xA0, 0x00] [] with y := 0x05, p := 0x80 }) =
      some ([0x00, 0x00, 0x00, 0xFD, 0x02], 0x8002, .running, []) := by decide

theorem test_v14_sta_abs :
    look [0x0200] (step { fresh 0x8000 [0x8D, 0x00, 0x02] [] with a := 0x42, p := 0xC3 }) =
      some ([0x42, 0x00, 0x00, 0xFD, 0xC3], 0x8003, .running, [0x42]) := by decide

theorem test_v15_sta_izy :
    look [0x0400] (step { fresh 0x8000 [0x91, 0x40] [(0x0040, 0x01), (0x0041, 0x03)] with a := 0x5A, y := 0xFF }) =
      some ([0x5A, 0x00, 0xFF, 0xFD, 0x00], 0x8002, .running, [0x5A]) := by decide

theorem test_v16_stx_zpy :
    look [0x0013] (step { fresh 0x8000 [0x96, 0x10] [] with x := 0x07, y := 0x03 }) =
      some ([0x00, 0x07, 0x03, 0xFD, 0x00], 0x8002, .running, [0x07]) := by decide

theorem test_v17_sty_zpx :
    look [0x0000] (step { fresh 0x8000 [0x94, 0xFF] [] with x := 0x01, y := 0xFF }) =
      some ([0x00, 0x01, 0xFF, 0xFD, 0x00], 0x8002, .running, [0xFF]) := by decide

theorem test_v19_adc_imm :
    look [] (step { fresh 0x8000 [0x69, 0x01] [] with a := 0x09, p := 0x08 }) =
      some ([0x0A, 0x00, 0x00, 0xFD, 0x08], 0x8002, .running, []) := by decide

theorem test_v20_adc_imm :
    look [] (step { fresh 0x8000 [0x69, 0x01] [] with a := 0x7F, p := 0x01 }) =
      some ([0x81, 0x00, 0x00, 0xFD, 0xC0], 0x8002, .running, []) := by decide

theorem test_v21_adc_zp :
    look [] (step { fresh 0x8000 [0x65, 0x10] [(0x0010, 0x80)] with a := 0x80 }) =
      some ([0x00, 0x00, 0x00, 0xFD, 0x43], 0x8002, .running, []) := by decide

theorem test_v22_sbc_imm :
    look [] (step { fresh 0x8000 [0xE9, 0x01] [] with a := 0x80, p := 0x01 }) =
      some ([0x7F, 0x00, 0x00, 0xFD, 0x41], 0x8002, .running, []) := by decide

theorem test_v23_sbc_imm :
    look [] (step { fresh 0x8000 [0xE9, 0x05] [] with a := 0x03, p := 0x01 }) =
      some ([0xFE, 0x00, 0x00, 0xFD, 0x80], 0x8002, .running, []) := by decide

theorem test_v25_cmp_imm :
    look [] (step { fresh 0x8000 [0xC9, 0x41] [] with a := 0x40 }) =
      some ([0x40, 0x00, 0x00, 0xFD, 0x80], 0x8002, .running, []) := by decide

theorem test_v26_cmp_imm :
    look [] (step { fresh 0x8000 [0xC9, 0xFF] [] with p := 0x01 }) =
      some ([0x00, 0x00, 0x00, 0xFD, 0x00], 0x8002, .running, []) := by decide

theorem test_v27_cpx_imm :
    look [] (step { fresh 0x8000 [0xE0, 0x05] [] with x := 0x05 }) =
      some ([0x00, 0x05, 0x00, 0xFD, 0x03], 0x8002, .running, []) := by decide

theorem test_v28_cpy_abs :
    look [] (step { fresh 0x8000 [0xCC, 0x00, 0x03] [(0x0300, 0x7F)] with y := 0x80 }) =
      some ([0x00, 0x00, 0x80, 0xFD, 0x01], 0x8003, .running, []) := by decide

theorem test_v29_and_imm :
    look [] (step { fresh 0x8000 [0x29, 0x3C] [] with a := 0xF0 }) =
      some ([0x30, 0x00, 0x00, 0xFD, 0x00], 0x8002, .running, []) := by decide

theorem test_v30_ora_imm :
    look [] (step { fresh 0x8000 [0x09, 0x80] [] with a := 0x0F }) =
      some ([0x8F, 0x00, 0x00, 0xFD, 0x80], 0x8002, .running, []) := by decide

theorem test_v31_eor_imm :
    look [] (step { fresh 0x8000 [0x49, 0xAA] [] with a := 0xAA }) =
      some ([0x00, 0x00, 0x00, 0xFD, 0x02], 0x8002, .running, []) := by decide

theorem test_v32_bit_zp :
    look [] (step { fresh 0x8000 [0x24, 0x20] [(0x0020, 0xC0)] with a := 0x01 }) =
      some ([0x01, 0x00, 0x00, 0xFD, 0xC2], 0x8002, .running, []) := by decide

theorem test_v33_bit_abs :
    look [] (step { fresh 0x8000 [0x2C, 0x00, 0x03] [(0x0300, 0x3F)] with a := 0xFF, p := 0xC1 }) =
      some ([0xFF, 0x00, 0x00, 0xFD, 0x01], 0x8003, .running, []) := by decide

theorem test_v34_asl_a :
    look [] (step { fresh 0x8000 [0x0A] [] with a := 0x80 }) =
      some ([0x00, 0x00, 0x00, 0xFD, 0x03], 0x8001, .running, []) := by decide

theorem test_v35_asl_zp :
    look [0x0010] (step (fresh 0x8000 [0x06, 0x10] [(0x0010, 0xC0)])) =
      some ([0x00, 0x00, 0x00, 0xFD, 0x81], 0x8002, .running, [0x80]) := by decide

theorem test_v36_lsr_a :
    look [] (step { fresh 0x8000 [0x4A] [] with a := 0x01, p := 0x80 }) =
      some ([0x00, 0x00, 0x00, 0xFD, 0x03], 0x8001, .running, []) := by decide

theorem test_v37_lsr_abs :
    look [0x0200] (step (fresh 0x8000 [0x4E, 0x00, 0x02] [(0x0200, 0x03)])) =
      some ([0x00, 0x00, 0x00, 0xFD, 0x01], 0x8003, .running, [0x01]) := by decide

theorem test_v38_rol_a :
    look [] (step { fresh 0x8000 [0x2A] [] with a := 0x55, p := 0x01 }) =
      some ([0xAB, 0x00, 0x00, 0xFD, 0x80], 0x8001, .running, []) := by decide

theorem test_v39_rol_zp :
    look [0x0010] (step { fresh 0x8000 [0x26, 0x10] [(0x0010, 0x80)] with p := 0x01 }) =
      some ([0x00, 0x00, 0x00, 0xFD, 0x01], 0x8002, .running, [0x01]) := by decide

theorem test_v40_ror_a :
    look [] (step { fresh 0x8000 [0x6A] [] with a := 0x02, p := 0x01 }) =
      some ([0x81, 0x00, 0x00, 0xFD, 0x80], 0x8001, .running, []) := by decide

theorem test_v41_ror_abs :
    look [0x0300] (step (fresh 0x8000 [0x6E, 0x00, 0x03] [(0x0300, 0x01)])) =
      some ([0x00, 0x00, 0x00, 0xFD, 0x03], 0x8003, .running, [0x00]) := by decide

theorem test_v43_inc_zp :
    look [0x0010] (step { fresh 0x8000 [0xE6, 0x10] [(0x0010, 0xFF)] with p := 0x41 }) =
      some ([0x00, 0x00, 0x00, 0xFD, 0x43], 0x8002, .running, [0x00]) := by decide

theorem test_v44_dec_abs :
    look [0x0200] (step (fresh 0x8000 [0xCE, 0x00, 0x02] [(0x0200, 0x00)])) =
      some ([0x00, 0x00, 0x00, 0xFD, 0x80], 0x8003, .running, [0xFF]) := by decide

theorem test_v45_inx :
    look [] (step { fresh 0x8000 [0xE8] [] with x := 0xFF }) =
      some ([0x00, 0x00, 0x00, 0xFD, 0x02], 0x8001, .running, []) := by decide

theorem test_v46_iny :
    look [] (step { fresh 0x8000 [0xC8] [] with y := 0x7F }) =
      some ([0x00, 0x00, 0x80, 0xFD, 0x80], 0x8001, .running, []) := by decide

theorem test_v47_dex :
    look [] (step { fresh 0x8000 [0xCA] [] with x := 0x01 }) =
      some ([0x00, 0x00, 0x00, 0xFD, 0x02], 0x8001, .running, []) := by decide

theorem test_v48_dey :
    look [] (step (fresh 0x8000 [0x88] [])) =
      some ([0x00, 0x00, 0xFF, 0xFD, 0x80], 0x8001, .running, []) := by decide

theorem test_v49_bne_taken :
    look [] (step (fresh 0x8005 [0xD0, 0xFB] [])) =
      some ([0x00, 0x00, 0x00, 0xFD, 0x00], 0x8002, .running, []) := by decide

theorem test_v50_bne_not_taken :
    look [] (step { fresh 0x8005 [0xD0, 0xFB] [] with p := 0x02 }) =
      some ([0x00, 0x00, 0x00, 0xFD, 0x02], 0x8007, .running, []) := by decide

theorem test_v51_bcc_taken :
    look [] (step (fresh 0x0010 [0x90, 0x80] [])) =
      some ([0x00, 0x00, 0x00, 0xFD, 0x00], 0xFF92, .running, []) := by decide

theorem test_v52_bcs_taken :
    look [] (step { fresh 0xFFF0 [0xB0, 0x7F] [] with p := 0x01 }) =
      some ([0x00, 0x00, 0x00, 0xFD, 0x01], 0x0071, .running, []) := by decide

theorem test_v53_beq_taken :
    look [] (step { fresh 0x8000 [0xF0, 0xFF] [] with p := 0x02 }) =
      some ([0x00, 0x00, 0x00, 0xFD, 0x02], 0x8001, .running, []) := by decide

theorem test_v55_bmi_bpl :
    look [] (step { fresh 0x8000 [0x30, 0x02] [] with p := 0x80 }) =
      some ([0x00, 0x00, 0x00, 0xFD, 0x80], 0x8004, .running, []) := by decide

theorem test_v56_bpl_self :
    look [] (step (fresh 0x8000 [0x10, 0xFE] [])) =
      some ([0x00, 0x00, 0x00, 0xFD, 0x00], 0x8000, .running, []) := by decide

theorem test_v57_bvc :
    look [] (step (fresh 0x80FE [0x50, 0x01] [])) =
      some ([0x00, 0x00, 0x00, 0xFD, 0x00], 0x8101, .running, []) := by decide

theorem test_v58_bvs_not_taken :
    look [] (step (fresh 0x8000 [0x70, 0x7F] [])) =
      some ([0x00, 0x00, 0x00, 0xFD, 0x00], 0x8002, .running, []) := by decide

theorem test_v59_jmp_abs :
    look [] (step (fresh 0x8000 [0x4C, 0x00, 0x90] [])) =
      some ([0x00, 0x00, 0x00, 0xFD, 0x00], 0x9000, .running, []) := by decide

theorem test_v60_jmp_abs :
    look [] (step (fresh 0x8000 [0x4C, 0x01, 0x80] [])) =
      some ([0x00, 0x00, 0x00, 0xFD, 0x00], 0x8001, .running, []) := by decide

theorem test_v61_jmp_ind :
    look [] (step (fresh 0x8000 [0x6C, 0x20, 0x01] [(0x0120, 0xFC), (0x0121, 0xBA)])) =
      some ([0x00, 0x00, 0x00, 0xFD, 0x00], 0xBAFC, .running, []) := by decide

theorem test_v62_jmp_ind :
    look [] (step (fresh 0x8000 [0x6C, 0xFF, 0x30] [(0x30FF, 0x80), (0x3000, 0x50), (0x3100, 0x40)])) =
      some ([0x00, 0x00, 0x00, 0xFD, 0x00], 0x5080, .running, []) := by decide

theorem test_v63_jsr :
    look [0x01FC, 0x01FD] (step (fresh 0x8000 [0x20, 0x10, 0x80] [])) =
      some ([0x00, 0x00, 0x00, 0xFB, 0x00], 0x8010, .running, [0x02, 0x80]) := by decide

theorem test_v64_jsr :
    look [] (step { fresh 0xFFFE [0x20, 0x34, 0x12] [] with sp := 0x00 }) =
      some ([0x00, 0x00, 0x00, 0xFE, 0x00], 0x1234, .running, []) := by decide

theorem test_v65_rts :
    look [] (step { fresh 0x8000 [0x60] [(0x01FC, 0x02), (0x01FD, 0x80)] with sp := 0xFB }) =
      some ([0x00, 0x00, 0x00, 0xFD, 0x00], 0x8003, .running, []) := by decide

theorem test_v66_rts :
    look [] (step { fresh 0x8000 [0x60] [(0x0100, 0xFF), (0x0101, 0xFF)] with sp := 0xFF }) =
      some ([0x00, 0x00, 0x00, 0x01, 0x00], 0x0000, .running, []) := by decide

theorem test_v67_rti :
    look [] (step { fresh 0x8000 [0x40] [(0x01FB, 0xF3), (0x01FC, 0x34), (0x01FD, 0x12)] with sp := 0xFA }) =
      some ([0x00, 0x00, 0x00, 0xFD, 0xF3], 0x1234, .running, []) := by decide

theorem test_v68_clc :
    look [] (step { fresh 0x8000 [0x18] [] with p := 0xC3 }) =
      some ([0x00, 0x00, 0x00, 0xFD, 0xC2], 0x8001, .running, []) := by decide

theorem test_v69_sec :
    look [] (step (fresh 0x8000 [0x38] [])) =
      some ([0x00, 0x00, 0x00, 0xFD, 0x01], 0x8001, .running, []) := by decide

theorem test_v70_cld :
    look [] (step { fresh 0x8000 [0xD8] [] with p := 0x08 }) =
      some ([0x00, 0x00, 0x00, 0xFD, 0x00], 0x8001, .running, []) := by decide

theorem test_v71_sed :
    look [] (step (fresh 0x8000 [0xF8] [])) =
      some ([0x00, 0x00, 0x00, 0xFD, 0x08], 0x8001, .running, []) := by decide

theorem test_v72_cli :
    look [] (step { fresh 0x8000 [0x58] [] with p := 0x04 }) =
      some ([0x00, 0x00, 0x00, 0xFD, 0x00], 0x8001, .running, []) := by decide

theorem test_v73_sei :
    look [] (step (fresh 0x8000 [0x78] [])) =
      some ([0x00, 0x00, 0x00, 0xFD, 0x04], 0x8001, .running, []) := by decide

theorem test_v74_clv :
    look [] (step { fresh 0x8000 [0xB8] [] with p := 0xC0 }) =
      some ([0x00, 0x00, 0x00, 0xFD, 0x80], 0x8001, .running, []) := by decide

theorem test_v75_tax :
    look [] (step { fresh 0x8000 [0xAA] [] with a := 0xFF }) =
      some ([0xFF, 0xFF, 0x00, 0xFD, 0x80], 0x8001, .running, []) := by decide

theorem test_v76_txa :
    look [] (step { fresh 0x8000 [0x8A] [] with a := 0x55 }) =
      some ([0x00, 0x00, 0x00, 0xFD, 0x02], 0x8001, .running, []) := by decide

theorem test_v77_tay :
    look [] (step { fresh 0x8000 [0xA8] [] with a := 0x7F, p := 0x82 }) =
      some ([0x7F, 0x00, 0x7F, 0xFD, 0x00], 0x8001, .running, []) := by decide

theorem test_v78_tya :
    look [] (step { fresh 0x8000 [0x98] [] with y := 0x80 }) =
      some ([0x80, 0x00, 0x80, 0xFD, 0x80], 0x8001, .running, []) := by decide

theorem test_v79_tsx :
    look [] (step (fresh 0x8000 [0xBA] [])) =
      some ([0x00, 0xFD, 0x00, 0xFD, 0x80], 0x8001, .running, []) := by decide

theorem test_v80_txs :
    look [] (step { fresh 0x8000 [0x9A] [] with p := 0x80 }) =
      some ([0x00, 0x00, 0x00, 0x00, 0x80], 0x8001, .running, []) := by decide

theorem test_v81_pha :
    look [0x01FD] (step { fresh 0x8000 [0x48] [] with a := 0x42 }) =
      some ([0x42, 0x00, 0x00, 0xFC, 0x00], 0x8001, .running, [0x42]) := by decide

theorem test_v82_pha :
    look [0x0100] (step { fresh 0x8000 [0x48] [] with a := 0x42, sp := 0x00 }) =
      some ([0x42, 0x00, 0x00, 0xFF, 0x00], 0x8001, .running, [0x42]) := by decide

theorem test_v83_pla :
    look [] (step { fresh 0x8000 [0x68] [(0x01FD, 0x00)] with a := 0x11, sp := 0xFC, p := 0x80 }) =
      some ([0x00, 0x00, 0x00, 0xFD, 0x02], 0x8001, .running, []) := by decide

theorem test_v84_pla :
    look [] (step { fresh 0x8000 [0x68] [(0x0100, 0x99)] with sp := 0xFF }) =
      some ([0x99, 0x00, 0x00, 0x00, 0x80], 0x8001, .running, []) := by decide

theorem test_v85_php :
    look [0x01FD] (step { fresh 0x8000 [0x08] [] with p := 0xCF }) =
      some ([0x00, 0x00, 0x00, 0xFC, 0xCF], 0x8001, .running, [0xCF]) := by decide

theorem test_v86_php :
    look [0x01FD] (step { fresh 0x8000 [0x08] [] with p := 0x30 }) =
      some ([0x00, 0x00, 0x00, 0xFC, 0x30], 0x8001, .running, [0x30]) := by decide

theorem test_v87_plp :
    look [] (step { fresh 0x8000 [0x28] [(0x01FD, 0xFF)] with sp := 0xFC }) =
      some ([0x00, 0x00, 0x00, 0xFD, 0xFF], 0x8001, .running, []) := by decide

theorem test_v89_nop :
    look [] (step { fresh 0x8000 [0xEA] [] with a := 0x01, x := 0x02, y := 0x03, p := 0xFF }) =
      some ([0x01, 0x02, 0x03, 0xFD, 0xFF], 0x8001, .running, []) := by decide

theorem test_v90_brk :
    look [] (step (fresh 0x8000 [0x00] [])) =
      some ([0x00, 0x00, 0x00, 0xFD, 0x00], 0x8001, .halted, []) := by decide

theorem test_v91_illegal_0x02 :
    look [] (step { fresh 0x8000 [0x02] [] with a := 0x07 }) =
      some ([0x07, 0x00, 0x00, 0xFD, 0x00], 0x8000, .faulted 0x02 0x8000, []) := by decide

theorem test_v92_illegal_0xff :
    look [] (step (fresh 0x1234 [0xFF] [])) =
      some ([0x00, 0x00, 0x00, 0xFD, 0x00], 0x1234, .faulted 0xFF 0x1234, []) := by decide

/-- Vector V93: the hook aborts; nothing is fetched. Then there is no further step. -/
theorem test_v93_hook_aborts :
    look [] (step { fresh 0x8000 [0xEA] [] with hookCalls := [⟨[], .abort⟩] }) =
      some ([0x00, 0x00, 0x00, 0xFD, 0x00], 0x8000, .aborted, []) := by decide

/-- Vector V94: the hook writes A and PC; the fetch uses the hook's PC. -/
theorem test_v94_hook_writes :
    look [] (step { fresh 0x8000 [0xEA] [(0x9000, 0xAA)] with hookCalls := [⟨[.a 0x99, .pc 0x9000], .goOn⟩] }) =
      some ([0x99, 0x99, 0x00, 0xFD, 0x80], 0x9001, .running, []) := by decide

/-- A hook may write the byte about to be fetched, and the other registers; the last write of one place stays. -/
theorem test_hook_writes_memory_and_registers :
    look [0x8000] (step { fresh 0x8000 [0xEA] [] with
      hookCalls := [⟨[.mem 0x8000 0x02, .mem 0x8000 0xE8, .x 0x7F, .y 0x11, .sp 0x22, .p 0x33], .goOn⟩, ⟨[], .abort⟩] }) =
      some ([0x00, 0x80, 0x11, 0x22, 0xB1], 0x8001, .running, [0xE8]) := by decide

/-- A terminal status has no step (10_state.md R38). -/
theorem test_terminal_statuses_are_stuck :
    stuck (step { fresh 0x8000 [0xEA] [] with run := .halted }) = some .afterHalt ∧
    stuck (step { fresh 0x8000 [0xEA] [] with run := .faulted 0x02 0x8000 }) = some (.afterDecodeFault 0x02 0x8000) ∧
    stuck (step { fresh 0x8000 [0xEA] [] with run := .aborted }) = some .afterHookAbort := by decide

/-- Vectors V95 and V96: load from power-on, then reset. -/
theorem test_v95_v96_load_and_reset :
    look [0x8000, 0x8001, 0x8002, 0xFFFC, 0xFFFD] (State.powerOn.load 0x8000 [0xA9, 0x05, 0x00]) =
      some ([0x00, 0x00, 0x00, 0x00, 0x00], 0x0000, .halted, [0xA9, 0x05, 0x00, 0x00, 0x80]) ∧
    look [0x8000] (match State.powerOn.load 0x8000 [0xA9, 0x05, 0x00] with
      | .next t => .next t.assertReset
      | .fault r => .fault r
      | .refused r => .refused r) = some ([0x00, 0x00, 0x00, 0xFD, 0x00], 0x8000, .running, [0xA9]) := by decide

/-- Vector V97: reset keeps Y and memory. -/
theorem test_v97_reset :
    look [0xFFFC, 0xFFFD, 0x01FD] (.next (State.assertReset { fresh 0x1234 [] [(0xFFFC, 0x34), (0xFFFD, 0xC0), (0x01FD, 0x77)]
      with a := 0x12, x := 0x34, y := 0x56, sp := 0x10, p := 0xFF, run := .halted })) =
      some ([0x00, 0x00, 0x56, 0xFD, 0x00], 0xC034, .running, [0x34, 0xC0, 0x77]) := by decide

/-- Vector V98: the first step after a reset with nothing loaded executes the BRK at 0x0000. -/
theorem test_v98_bare_reset :
    look [] (step State.reset) = some ([0x00, 0x00, 0x00, 0xFD, 0x00], 0x0001, .halted, []) := by decide

/-! ## Witnesses: for each statement with hypotheses, data that meets them -/

/-- For `DecodedBytesAreTheEncoding`. -/
theorem witness_decoded_bytes : decode [0xBD, 0x34, 0x12, 0xEA] = .ok (.ldaAbx 0x1234) [0xEA] := by decide

/-- For `ListedBytesAndNoOthersAreIllegal`: the first and the last byte of the list, and bytes next to them. -/
theorem witness_listed_bytes :
    0x02#8 ∈ illegalBytes ∧ 0xFF#8 ∈ illegalBytes ∧ 0x01#8 ∉ illegalBytes ∧ 0xFE#8 ∉ illegalBytes ∧
    0x00#8 ∉ illegalBytes := by decide

/-- For both clauses of `OpcodeByteAloneSelectsTheInstruction`. -/
theorem witness_opcode_byte :
    decode [0xD0, 0x7F] = .ok (.bne 0x7F) [] ∧ decode [0xD0, 0x80, 0xFF] = .ok (.bne 0x80) [0xFF] := by decide

/-- For `LegalFormsAreTheInstructionsThatExist`. -/
theorem witness_legal_forms :
    legalForm .ldx .zpy = true ∧ legalForm .ldx .zpx = false ∧ (Instr.ldxZpy 0x10).addressing = some (.zpy 0x10) ∧
    (Instr.jmpInd 0x1234).addressing = none := by decide

/-- For `StepRunsTheDecodedInstruction`, with the operand bytes across the top of memory. -/
theorem witness_step_runs :
    let s := fresh 0xFFFE [0x8D, 0x34, 0x12] []
    s.run = .running ∧ s.hookCalls = [] ∧ decode s.fetchBytes = .ok (.staAbs 0x1234) [] := by decide

/-- A hook that stops the run, and one that writes and goes on. -/
def stoppingHook : Hook := fun v => ({ v with a := 0x99 }, .abort)
def writingHook : Hook := fun v => ({ v with a := 0x99, mem := Memory.write v.mem 0x9000 0x02, pc := 0x9000 }, .goOn)

/-- For `HookIsConsultedBeforeTheFetch`, both clauses. -/
theorem witness_hook_is_consulted :
    let s := fresh 0x8000 [0x02] []
    s.run = .running ∧ stoppingHook s.view = ({ s.view with a := 0x99 }, .abort) ∧
    writingHook s.view = ((writingHook s.view).1, .goOn) := by decide

/-- For `QueuedAnswersActAsTheHook`, both clauses. -/
theorem witness_queued_answers :
    (fresh 0x8000 [0xEA] []).hookCalls = [] ∧
    ({ fresh 0x8000 [0xEA] [] with hookCalls := [⟨[.a 0x99], .abort⟩] }).hookCalls = ⟨[.a 0x99], .abort⟩ :: [] := by decide

/-- For `EveryHookStepIsSomeQueuedAnswer` and `HooksResetAndLoadKeepTheInvariant`: a hook that writes memory and keeps
it canonical. -/
theorem witness_hook_keeps_memory : HookKeepsMemory writingHook ∧ Memory.wf (fresh 0x8000 [0xEA] []).mem = true := by
  refine ⟨fun v h => ?_, by decide⟩
  exact (show Memory.wf (Memory.write v.mem 0x9000 0x02) = true from Memory.wf_write 0x02 (by decide) h)

/-- For `IllegalByteStopsTheMachineThere`, with the default hook and with one that writes the illegal byte. -/
theorem witness_illegal_byte :
    let s := fresh 0x1234 [0xFF] []
    s.run = .running ∧ defaultHook s.view = (s.view, .goOn) ∧ (s.withView s.view).readByte s.view.pc ∈ illegalBytes ∧
    writingHook s.view = ((writingHook s.view).1, .goOn) ∧
    (s.withView (writingHook s.view).1).readByte (writingHook s.view).1.pc ∈ illegalBytes := by decide

/-- For `TerminalStatusHasNoStepAndReportsItsResult`: each terminal status, a running machine with a next state, and a
run that has stopped. -/
theorem witness_terminal_status :
    RunStatus.halted.terminal = true ∧ (RunStatus.faulted 0x02 0x8000).terminal = true ∧
    RunStatus.aborted.terminal = true ∧ State.reset.run = .running ∧
    step State.reset = .next { State.reset with pc := 0x0001, run := .halted } ∧
    (State.reset.runFor 1).run.terminal = true := ⟨rfl, rfl, rfl, rfl, rfl, rfl⟩

/-- For `EveryStepOfARunningMachineCompletes`. -/
theorem witness_running : State.reset.run = .running := by decide

/-- For `ProgramCounterAdvancesByTheLength`: a one-byte, a two-byte and a three-byte instruction. -/
theorem witness_not_a_transfer :
    Instr.brk.mnemonic ∉ [Mnemonic.bcc, .bcs, .beq, .bne, .bmi, .bpl, .bvc, .bvs, .jmp, .jsr, .rts, .rti] ∧
    (Instr.ldaImm 0x00).mnemonic ∉ [Mnemonic.bcc, .bcs, .beq, .bne, .bmi, .bpl, .bvc, .bvs, .jmp, .jsr, .rts, .rti] ∧
    (Instr.incAbx 0x00).mnemonic ∉ [Mnemonic.bcc, .bcs, .beq, .bne, .bmi, .bpl, .bvc, .bvs, .jmp, .jsr, .rts, .rti] := by
  decide

/-- For `StatusChangesOnlyForItsCause`: a step into each status. -/
theorem witness_status_changes :
    (look [] (stepWith defaultHook (fresh 0x8000 [0xEA] []))).map (fun r => r.2.2.1) = some .running ∧
    (look [] (stepWith defaultHook (fresh 0x8000 [0x00] []))).map (fun r => r.2.2.1) = some .halted ∧
    (look [] (stepWith defaultHook (fresh 0x8000 [0x02] []))).map (fun r => r.2.2.1) = some (.faulted 0x02 0x8000) ∧
    (look [] (stepWith stoppingHook (fresh 0x8000 [0xEA] []))).map (fun r => r.2.2.1) = some .aborted := by decide

/-- For `LoadWritesTheImageAndTheResetVector` and `FreshProcessorStartsAtTheLoadBase`: an image that ends right below
the vector, one that starts right above it and ends at the top, and an empty one at the vector. -/
theorem witness_images_that_fit :
    ((0xFFFA#16).toNat + [0xEA#8, 0x00#8].length ≤ 65536 ∧
      ∀ k, k < [0xEA#8, 0x00#8].length → (0xFFFA#16).toNat + k ≠ 0xFFFC ∧ (0xFFFA#16).toNat + k ≠ 0xFFFD) ∧
    ((0xFFFE#16).toNat + [0xEA#8, 0x00#8].length ≤ 65536 ∧
      ∀ k, k < [0xEA#8, 0x00#8].length → (0xFFFE#16).toNat + k ≠ 0xFFFC ∧ (0xFFFE#16).toNat + k ≠ 0xFFFD) ∧
    ((0xFFFD#16).toNat + ([] : List Byte).length ≤ 65536 ∧
      ∀ k, k < ([] : List Byte).length → (0xFFFD#16).toNat + k ≠ 0xFFFC ∧ (0xFFFD#16).toNat + k ≠ 0xFFFD) := by decide

/-- For the inner clauses of the same: a byte of the image, and an address that the load leaves, below, above and far. -/
theorem witness_load_inner :
    (0 : Nat) < [0xEA#8, 0x00#8].length ∧ (0xFFF9#16).toNat < (0xFFFA#16).toNat ∧
    (0xFFFA#16).toNat + [0xEA#8, 0x00#8].length ≤ (0xFFFE#16).toNat ∧ (0xFFFE#16) ≠ 0xFFFC ∧ (0xFFFE#16) ≠ 0xFFFD := by
  decide

/-- For the refusals of `LoadWritesTheImageAndTheResetVector`: an image past the top, one over the vector's low byte, one
over its high byte. -/
theorem witness_images_that_do_not_fit :
    65536 < (0xFFFF#16).toNat + [0xEA#8, 0x00#8].length ∧
    (∃ k, k < [0xEA#8, 0x00#8].length ∧ ((0xFFFB#16).toNat + k = 0xFFFC ∨ (0xFFFB#16).toNat + k = 0xFFFD)) ∧
    (∃ k, k < [0xEA#8, 0x00#8].length ∧ ((0xFFFD#16).toNat + k = 0xFFFC ∨ (0xFFFD#16).toNat + k = 0xFFFD)) :=
  ⟨by decide, ⟨1, by decide⟩, ⟨0, by decide⟩⟩

/-- For `WrittenByteReadsBackAndNothingElseChanges`. -/
theorem witness_other_address : (0x0000#16) ≠ 0xFFFF := by decide

/-- For `CanonicalMemoriesWithEqualBytesAreEqual`. -/
theorem witness_canonical_memories :
    Memory.wf [(0x10, 0x01), (0xFFFF, 0x02)] = true ∧
    (∀ a : Word, Memory.read [(0x10, 0x01), (0xFFFF, 0x02)] a.toNat = Memory.read [(0x10, 0x01), (0xFFFF, 0x02)] a.toNat) :=
  ⟨by decide, fun _ => rfl⟩

/-- For `FetchedOperandIsTheByteAtTheEffectiveAddress`, in the immediate mode. -/
theorem witness_fetched_operand :
    decode (fresh 0x8000 [0xA9, 0x80] []).fetchBytes = .ok (.ldaImm 0x80) [0x00] ∧
    (Instr.ldaImm 0x80).addressing = some (.imm 0x80) := by decide

/-- For `RegistersAreWrittenByTheirInstructionsOnly`: a change of A, of X, of Y and of SP. -/
theorem witness_registers_change :
    (∃ t, exec (.ldaImm 0x80) State.reset = .next t ∧ t.a ≠ State.reset.a) ∧
    (∃ t, exec .tsx State.reset = .next t ∧ t.x ≠ State.reset.x) ∧
    (∃ t, exec .dey State.reset = .next t ∧ t.y ≠ State.reset.y) ∧
    (∃ t, exec .pha State.reset = .next t ∧ t.sp ≠ State.reset.sp) :=
  ⟨⟨_, rfl, by decide⟩, ⟨_, rfl, by decide⟩, ⟨_, rfl, by decide⟩, ⟨_, rfl, by decide⟩⟩

/-- For `StorageOnlyBitsInfluenceNothing`: each bit, and an instruction for each clause. -/
theorem witness_storage_only :
    (2 ∈ [2, 3, 4, 5] ∧ 3 ∈ [2, 3, 4, 5] ∧ 4 ∈ [2, 3, 4, 5] ∧ 5 ∈ [2, 3, 4, 5]) ∧
    (Instr.adcImm 0x01).mnemonic ∉ [Mnemonic.php, .plp, .rti, .cli, .sei, .cld, .sed] ∧
    Instr.rti.mnemonic ∈ [Mnemonic.plp, .rti] ∧ Instr.sei.mnemonic ∈ [Mnemonic.cli, .sei] ∧
    Instr.cld.mnemonic ∈ [Mnemonic.cld, .sed] ∧ Instr.php.mnemonic = .php := by decide

/-- For `EveryStepKeepsTheInvariant` and `HooksResetAndLoadKeepTheInvariant`: a state with the invariant and a step, in
each status a step can end in; and a load from it. -/
theorem witness_invariant :
    Inv State.reset ∧ step State.reset = .next { State.reset with pc := 0x0001, run := .halted } ∧
    Inv { State.reset with pc := 0x0001, run := .halted } ∧
    (∃ t, stepWith writingHook State.reset = .next t ∧ t.run = .faulted 0x02 0x9000) ∧
    (∃ t, stepWith stoppingHook State.reset = .next t ∧ t.run = .aborted) ∧
    (∃ t, State.reset.load 0x8000 [0xEA] = .next t) :=
  ⟨⟨rfl, trivial⟩, rfl, ⟨rfl, rfl⟩, ⟨_, rfl, rfl⟩, ⟨_, rfl, rfl⟩, ⟨_, rfl⟩⟩

end Sys2Proof.Tests
end

section
/-! Reset, and the data of memory (10_state.md, 70_reset_and_hazards.md). -/

namespace Sys2Proof.Machine

/-! ## Reset -/

/-- Settles O17: the vector word is read by `readWord`, low byte first. -/
theorem resetSetsTheListedRegistersOnly : Obligations.ResetSetsTheListedRegistersOnly := fun _ => rfl

/-- Settles O18: both bytes of the vector of zeroed memory are unwritten ones, so `PC` is 0x0000. -/
theorem resetStateIsTheFirstResetAfterPowerOn : Obligations.ResetStateIsTheFirstResetAfterPowerOn :=
  ⟨rfl, rfl, rfl, rfl, rfl, rfl, rfl, rfl, fun a => Memory.read_nil a.toNat⟩

/-- Settles O58, from the canonical form of the empty memory. -/
theorem resetStateSatisfiesTheInvariant : Obligations.ResetStateSatisfiesTheInvariant :=
  ⟨State.reset_mem_wf, trivial⟩

/-! ## Canonical memories -/

/-- The canonical form of a memory with a first entry. -/
theorem Memory.wfFrom_cons_iff {lo k : Nat} {v : Byte} {m : Memory} :
    Memory.wfFrom lo ((k, v) :: m) = true ↔
      lo ≤ k ∧ k < Config.addressSpace ∧ v ≠ Config.unwritten ∧ Memory.wfFrom (k + 1) m = true := by
  simp [Memory.wfFrom, and_assoc]

/-- Below the first address it may list, a canonical memory is unwritten. -/
theorem Memory.read_below {lo a : Nat} {m : Memory} (h : Memory.wfFrom lo m = true) (ha : a < lo) :
    Memory.read m a = Config.unwritten := by
  induction m generalizing lo with
  | nil => rfl
  | cons e rest ih =>
    obtain ⟨hlo, -, -, hrest⟩ := Memory.wfFrom_cons_iff.1 h
    rw [Memory.read, if_neg (by omega)]
    exact ih hrest (by omega)

/-- A canonical memory that reads as unwritten everywhere lists nothing. -/
theorem Memory.eq_nil_of_unwritten {lo : Nat} {m : Memory} (h : Memory.wfFrom lo m = true)
    (hr : ∀ a < Config.addressSpace, Memory.read m a = Config.unwritten) : m = [] := by
  cases m with
  | nil => rfl
  | cons e rest =>
    obtain ⟨-, hk, hv, -⟩ := Memory.wfFrom_cons_iff.1 h
    exact absurd (by simpa [Memory.read] using hr e.1 hk) hv

/-- The first address a canonical memory lists is not above the first that another one lists with the same bytes:
there the other one would be unwritten. -/
theorem Memory.first_le {k k' : Nat} {v v' : Byte} {rest rest' : Memory}
    (h : Memory.wfFrom k ((k, v) :: rest) = true) (h' : Memory.wfFrom k' ((k', v') :: rest') = true)
    (hr : ∀ a < Config.addressSpace, Memory.read ((k, v) :: rest) a = Memory.read ((k', v') :: rest') a) : k' ≤ k := by
  obtain ⟨-, hk, hv, -⟩ := Memory.wfFrom_cons_iff.1 h
  by_contra hlt
  have hread : v = Config.unwritten := by
    simpa [Memory.read] using (hr k hk).trans (Memory.read_below h' (by omega))
  exact hv hread

/-- Canonical memories with the same bytes are the same list, from whatever address they begin. -/
theorem Memory.eq_of_read_eq {lo lo' : Nat} {m m' : Memory} (h : Memory.wfFrom lo m = true)
    (h' : Memory.wfFrom lo' m' = true) (hr : ∀ a < Config.addressSpace, Memory.read m a = Memory.read m' a) :
    m = m' := by
  induction m generalizing lo lo' m' with
  | nil => exact (Memory.eq_nil_of_unwritten h' fun a ha => (hr a ha).symm).symm
  | cons e rest ih =>
    obtain ⟨k, v⟩ := e
    cases m' with
    | nil => exact Memory.eq_nil_of_unwritten h hr
    | cons e' rest' =>
      obtain ⟨k', v'⟩ := e'
      obtain ⟨-, hk, hv, hrest⟩ := Memory.wfFrom_cons_iff.1 h
      obtain ⟨-, hk', hv', hrest'⟩ := Memory.wfFrom_cons_iff.1 h'
      have hle : k' ≤ k := Memory.first_le (Memory.wfFrom_cons_iff.2 ⟨le_rfl, hk, hv, hrest⟩)
        (Memory.wfFrom_cons_iff.2 ⟨le_rfl, hk', hv', hrest'⟩) hr
      have hge : k ≤ k' := Memory.first_le (Memory.wfFrom_cons_iff.2 ⟨le_rfl, hk', hv', hrest'⟩)
        (Memory.wfFrom_cons_iff.2 ⟨le_rfl, hk, hv, hrest⟩) fun a ha => (hr a ha).symm
      obtain rfl : k = k' := le_antisymm hge hle
      obtain rfl : v = v' := by simpa [Memory.read] using hr k hk
      have htail : rest = rest' := ih hrest hrest' fun a ha => by
        by_cases hak : k = a
        · rw [Memory.read_below hrest (by omega), Memory.read_below hrest' (by omega)]
        · simpa [Memory.read, hak] using hr a ha
      rw [htail]

/-- Settles O22, by induction on the two lists. -/
theorem canonicalMemoriesWithEqualBytesAreEqual : Obligations.CanonicalMemoriesWithEqualBytesAreEqual :=
  fun m m' h h' hr => Memory.eq_of_read_eq h h' fun a ha => by
    simpa [Nat.mod_eq_of_lt (show a < 65536 from ha)] using hr (BitVec.ofNat 16 a)

end Sys2Proof.Machine
end

section
/-! What every instruction does to the run status, the program counter and the form of memory, and what every step can
end in (10_state.md R25, R38; 40_engine_and_addressing.md R106, R108). -/

namespace Sys2Proof.Machine

/-! ## Facts about every instruction -/

/-- A branch writes the program counter alone (46_control_flow.md R190). -/
theorem opBranch_spec (taken : Bool) (d : Byte) (s : State) :
    opBranch taken d s = s.setPC (opBranch taken d s).pc := by
  cases taken <;> rfl

@[simp] theorem opBranch_a (taken : Bool) (d : Byte) (s : State) : (opBranch taken d s).a = s.a := by
  rw [opBranch_spec, State.setPC_a]
@[simp] theorem opBranch_x (taken : Bool) (d : Byte) (s : State) : (opBranch taken d s).x = s.x := by
  rw [opBranch_spec, State.setPC_x]
@[simp] theorem opBranch_y (taken : Bool) (d : Byte) (s : State) : (opBranch taken d s).y = s.y := by
  rw [opBranch_spec, State.setPC_y]
@[simp] theorem opBranch_sp (taken : Bool) (d : Byte) (s : State) : (opBranch taken d s).sp = s.sp := by
  rw [opBranch_spec, State.setPC_sp]
@[simp] theorem opBranch_p (taken : Bool) (d : Byte) (s : State) : (opBranch taken d s).p = s.p := by
  rw [opBranch_spec, State.setPC_p]
@[simp] theorem opBranch_mem (taken : Bool) (d : Byte) (s : State) : (opBranch taken d s).mem = s.mem := by
  rw [opBranch_spec, State.setPC_mem]
@[simp] theorem opBranch_run (taken : Bool) (d : Byte) (s : State) : (opBranch taken d s).run = s.run := by
  rw [opBranch_spec, State.setPC_run]

/-- BRK alone changes the run status (60_exceptions.md R240). -/
theorem Effect.run_kept {i : Instr} {f : State → State} (he : Effect i f) (hi : i ≠ .brk) (s : State) :
    (f s).run = s.run := by
  cases he with
  | brk hbrk => exact absurd hbrk hi
  | branch _ _ _ _ _ _ => exact opBranch_run ..
  | _ => rfl

/-- Every instruction keeps memory canonical: it stores bytes, or leaves memory as it was. -/
theorem Effect.wf_mem {i : Instr} {f : State → State} (he : Effect i f) {s : State} (h : Memory.wf s.mem = true) :
    Memory.wf (f s).mem = true := by
  cases he with
  | store _ _ _ _ _ => exact State.wf_writeByte _ _ h
  | shiftM _ _ _ _ _ => exact State.wf_writeByte _ _ h
  | addToMemory _ _ _ _ _ => exact State.wf_writeByte _ _ h
  | pha _ => exact State.wf_push8 _ h
  | php _ => exact State.wf_push8 _ h
  | jsr _ _ => exact State.wf_push16 _ h
  | branch _ _ _ _ _ _ => simpa using h
  | _ => exact h

/-- The mnemonics of the instructions that write `PC` themselves (40_engine_and_addressing.md R106). -/
def controlTransfers : List Mnemonic := [.bcc, .bcs, .beq, .bne, .bmi, .bpl, .bvc, .bvs, .jmp, .jsr, .rts, .rti]

/-- An instruction that is no control transfer advances past its own bytes (40_engine_and_addressing.md R106). -/
theorem Effect.pc_advances {i : Instr} {f : State → State} (he : Effect i f) (hi : i.mnemonic ∉ controlTransfers)
    (s : State) : (f s).pc = s.nextPC i.length := by
  cases he with
  | branch _ _ _ _ hn _ => exact absurd ((by decide : _ ⊆ controlTransfers) hn) hi
  | jmpAbs _ h | jmpInd _ h => subst h; exact absurd (by decide : Mnemonic.jmp ∈ controlTransfers) hi
  | jsr _ h => subst h; exact absurd (by decide : Mnemonic.jsr ∈ controlTransfers) hi
  | rts h => subst h; exact absurd (by decide : Mnemonic.rts ∈ controlTransfers) hi
  | rti h => subst h; exact absurd (by decide : Mnemonic.rti ∈ controlTransfers) hi
  | txs h | pha h | php h | pla h | plp h | nop h | brk h => subst h; rfl
  | shiftA _ _ hd => rw [Instr.length, hd]; rfl
  | _ => rw [Instr.length, ‹i.mode = _›]; rfl

/-- Settles O15: the advance of every `Effect` that is no transfer, as a number. -/
theorem programCounterAdvancesByTheLength : Obligations.ProgramCounterAdvancesByTheLength := by
  intro i s hi
  obtain ⟨f, hexec, he⟩ := exec_effect i
  exact ⟨f s, hexec s, by rw [he.pc_advances hi, State.nextPC_toNat]⟩

/-! ## What a step can end in -/

/-- The instruction that a row of the table makes is BRK for the byte 0x00 only (30_encoding.md R84). -/
theorem build_eq_brk_iff {op : Byte} {f : OpForm} (h : lookupOpcode op = some f) (b1 b2 : Byte) :
    f.build b1 b2 = .brk ↔ op = 0x00 := by
  constructor
  · intro hb
    have hrow := rowAgrees_of_mem _ (mem_opcodeTable_of_lookup h)
    have henc : (encode (f.build b1 b2)).head? = some op := by
      cases f with
      | f1 i => exact congrArg List.head? hrow.1
      | f2 make => exact congrArg List.head? (hrow.1 b1)
      | f3 make => exact congrArg List.head? (hrow.1 (mk16 b2 b1))
    rw [hb] at henc
    exact (Option.some.inj henc).symm
  · rintro rfl
    obtain rfl : f = .f1 .brk := Option.some.inj (h.symm.trans rfl)
    rfl

/-- What the fetch ends in (40_engine_and_addressing.md R108): a stop at an illegal byte, the halt of a BRK, or the
effect of another instruction. -/
theorem fetchAndExecute_ends {s t : State} (h : fetchAndExecute s = .next t) :
    (s.readByte s.pc ∈ illegalBytes ∧ t = s.stop (.faulted (s.readByte s.pc) s.pc)) ∨
    (s.readByte s.pc = 0x00 ∧ t = (s.advance 1).stop .halted) ∨
    (s.readByte s.pc ∉ illegalBytes ∧ s.readByte s.pc ≠ 0x00 ∧ ∃ i f, i ≠ .brk ∧ Effect i f ∧ t = f s) := by
  obtain ⟨hill, hstop⟩ | ⟨form, hl, hrun⟩ := fetchAndExecute_cases s
  · exact .inl ⟨hill, Host.Outcome.next.inj (h.symm.trans hstop)⟩
  right
  have hbrk := build_eq_brk_iff hl (s.readByte (s.nextPC 1)) (s.readByte (s.nextPC 2))
  by_cases h0 : s.readByte s.pc = 0x00
  · rw [hbrk.2 h0] at hrun
    exact .inl ⟨h0, Host.Outcome.next.inj (h.symm.trans hrun)⟩
  · obtain ⟨f, hexec, he⟩ := exec_effect (form.build (s.readByte (s.nextPC 1)) (s.readByte (s.nextPC 2)))
    rw [hexec] at hrun
    have hlegal : s.readByte s.pc ∉ illegalBytes := fun hill => by simp [(lookupOpcode_eq_none _).2 hill] at hl
    exact .inr ⟨hlegal, h0, _, f, fun hi => h0 (hbrk.1 hi), he, Host.Outcome.next.inj (h.symm.trans hrun)⟩

/-- What a step that answers a next state did, after the hook's writes: the stop of an abort, or what the fetch ends
in. -/
theorem stepWith_ends {h : Hook} {s t : State} (hs : stepWith h s = .next t) :
    s.run = .running ∧
    (((h s.view).2 = .abort ∧ t = (s.withView (h s.view).1).stop .aborted) ∨
     ((h s.view).2 = .goOn ∧ fetchAndExecute (s.withView (h s.view).1) = .next t)) := by
  have hr : s.run = .running := by
    by_contra hne
    have hterm : s.run.terminal = true := by cases hrun : s.run <;> simp_all [RunStatus.terminal]
    obtain ⟨r, hfault⟩ := stepWith_terminal (h := h) hterm
    cases hfault.symm.trans hs
  refine ⟨hr, ?_⟩
  obtain ⟨hv, hstop⟩ | ⟨hv, hgo⟩ := stepWith_running_cases (h := h) hr
  · exact .inl ⟨hv, Host.Outcome.next.inj (hs.symm.trans hstop)⟩
  · exact .inr ⟨hv, hgo.symm.trans hs⟩

/-- Settles O16, by what a step can end in. -/
theorem statusChangesOnlyForItsCause : Obligations.StatusChangesOnlyForItsCause := by
  intro h s t _ hs
  obtain ⟨hr, ⟨hv, rfl⟩ | ⟨hv, hf⟩⟩ := stepWith_ends hs
  · exact hv
  obtain ⟨hill, rfl⟩ | ⟨h0, rfl⟩ | ⟨hlegal, h0, i, f, hi, he, rfl⟩ := fetchAndExecute_ends hf
  · exact ⟨hv, rfl, rfl, hill⟩
  · exact ⟨hv, h0⟩
  · simp only [he.run_kept hi, State.withView_run, hr]
    exact ⟨hv, h0, hlegal⟩

/-! ## The invariant -/

/-- What the fetch ends in satisfies the invariant, from any running machine with canonical memory. -/
theorem inv_of_fetchAndExecute {s t : State} (hr : s.run = .running) (hw : Memory.wf s.mem = true)
    (h : fetchAndExecute s = .next t) : Inv t := by
  obtain ⟨hill, rfl⟩ | ⟨h0, rfl⟩ | ⟨-, -, i, f, hi, he, rfl⟩ := fetchAndExecute_ends h
  · exact ⟨hw, hill, rfl, rfl⟩
  · have hpc : s.pc + 1 - 1 = s.pc := by bv_omega
    exact ⟨hw, (congrArg s.readByte hpc).trans h0⟩
  · exact ⟨he.wf_mem hw, by simp [StatusTruthful, he.run_kept hi, hr]⟩

/-- A step with a hook that keeps memory canonical ends in the invariant: that its status is truthful needs nothing of
the state before, since a terminal one has no step. -/
theorem inv_of_stepWith {h : Hook} {s t : State} (hh : HookKeepsMemory h) (hw : Memory.wf s.mem = true)
    (hs : stepWith h s = .next t) : Inv t := by
  have hw' : Memory.wf (s.withView (h s.view).1).mem = true := hh s.view hw
  obtain ⟨hr, ⟨-, rfl⟩ | ⟨-, hf⟩⟩ := stepWith_ends hs
  · exact ⟨hw', trivial⟩
  · exact inv_of_fetchAndExecute (s := s.withView (h s.view).1) hr hw' hf

/-- The step is a step with a hook that keeps memory canonical: the default one, or a pending answer. -/
theorem step_eq_stepWith_keepsMemory (s : State) :
    ∃ h, HookKeepsMemory h ∧ step s = stepWith h { s with hookCalls := s.hookCalls.tail } := by
  cases hq : s.hookCalls with
  | nil => exact ⟨defaultHook, fun _ hw => hw, by simp only [step, stepQueued, hq, List.tail_nil]; rw [← hq]⟩
  | cons c rest => exact ⟨c.toHook, fun _ hw => c.wf_toHook hw, by simp [step, stepQueued, hq]⟩

/-- Settles O59, from the same of a step with any hook that keeps memory canonical. -/
theorem everyStepKeepsTheInvariant : Obligations.EveryStepKeepsTheInvariant := by
  intro s t ⟨hw, _⟩ hs
  obtain ⟨h, hh, hstep⟩ := step_eq_stepWith_keepsMemory s
  exact inv_of_stepWith (s := { s with hookCalls := s.hookCalls.tail }) hh hw (hstep.symm.trans hs)

end Sys2Proof.Machine
end

section
/-! What every instruction writes of the registers and of the flags (10_state.md R21 to R24, R34, R35). -/

namespace Sys2Proof.Machine

/-! ## Flags -/

/-- Bits kept outside a list are kept outside a longer one. -/
theorem SameBitsExcept.mono {ks ks' : List Nat} {p q : Byte} (h : SameBitsExcept ks p q) (hsub : ks ⊆ ks') :
    SameBitsExcept ks' p q := fun k hk => h k fun hmem => hk (hsub hmem)

/-- Outside its eight bits a status byte has nothing that could differ. -/
theorem sameBitsExcept_all (p q : Byte) : SameBitsExcept [7, 6, 5, 4, 3, 2, 1, 0] p q := by
  intro k hk
  have hk8 : 8 ≤ k := by simp at hk; omega
  rw [BitVec.getLsbD_of_ge p k hk8, BitVec.getLsbD_of_ge q k hk8]

/-- What the flag summary lists for every mnemonic of a family, it lists for a member. -/
theorem flagsWritten_of_mem {mn : Mnemonic} {mns : List Mnemonic} {ks : List Nat} (h : mn ∈ mns)
    (hall : ∀ mn ∈ mns, ks ⊆ flagsWritten mn) : ks ⊆ flagsWritten mn := hall mn h

/-- `setZN` keeps every bit but Z and N, which every mnemonic that lists them may write. -/
theorem setZN_keeps {ks : List Nat} (hsub : [1, 7] ⊆ ks) (v p : Byte) : SameBitsExcept ks p (setZN v p) :=
  (setZN_from v p).2.2.mono hsub

/-- The flags of a shift keep every bit but C, Z and N. -/
theorem shiftFlags_keeps {ks : List Nat} (hsub : [0, 1, 7] ⊆ ks) (r : Byte × Bool) (p : Byte) :
    SameBitsExcept ks p (shiftFlags r p) :=
  (shiftFlags_from r p).2.2.2.mono hsub

/-- A sum taken into `A` keeps every bit but C, V, Z and N. -/
theorem takeSum_keeps {ks : List Nat} (hsub : [0, 1, 6, 7] ⊆ ks) (r : Sum8) (s : State) :
    SameBitsExcept ks s.p (takeSum r s).p :=
  (sumFlags_bits r s.p).2.2.2.2.mono hsub

/-- An instruction keeps every flag that the flag summary does not list for it (10_state.md R34). -/
theorem Effect.keeps_unlisted_flags {i : Instr} {f : State → State} (he : Effect i f) (s : State) :
    SameBitsExcept (flagsWritten i.mnemonic) s.p (f s).p := by
  cases he with
  | lda _ hn _ _ | ldx _ hn _ _ | ldy _ hn _ _ => exact setZN_keeps (by rw [hn]; decide) _ _
  | adc _ hn _ _ | sbc _ hn _ _ => exact takeSum_keeps (by rw [hn]; decide) _ _
  | compare _ _ hn _ _ =>
    refine (compareFlags_bits _ _ _).2.2.2.mono ?_
    rcases hn with ⟨hn, -⟩ | ⟨hn, -⟩ | ⟨hn, -⟩ <;> rw [hn] <;> decide
  | logic _ _ hn _ _ => exact setZN_keeps (flagsWritten_of_mem hn (by decide)) _ _
  | bit _ hn _ _ => exact (bitFlags_bits _ _ _).2.2.2.mono (by rw [hn]; decide)
  | shiftA _ hn _ => exact shiftFlags_keeps (flagsWritten_of_mem hn (by decide)) _ _
  | shiftM _ _ hn _ _ => exact shiftFlags_keeps (flagsWritten_of_mem hn (by decide)) _ _
  | addToMemory _ _ hn _ _ => exact setZN_keeps (flagsWritten_of_mem hn (by decide)) _ _
  | loadX _ hn _ =>
    refine setZN_keeps ?_ _ _
    rcases hn with ⟨hn, -⟩ | ⟨hn, -⟩ | ⟨hn, -⟩ | ⟨hn, -⟩ <;> rw [hn] <;> decide
  | loadY _ hn _ =>
    refine setZN_keeps ?_ _ _
    rcases hn with ⟨hn, -⟩ | ⟨hn, -⟩ | ⟨hn, -⟩ <;> rw [hn] <;> decide
  | loadA _ hn _ =>
    refine setZN_keeps ?_ _ _
    rcases hn with ⟨hn, -⟩ | ⟨hn, -⟩ <;> rw [hn] <;> decide
  | flag _ _ hn _ =>
    refine (putFlag_same _ _ _).mono ?_
    obtain ⟨hn, rfl⟩ | ⟨hn, rfl⟩ | ⟨hn, rfl⟩ | ⟨hn, rfl⟩ := hn
    · exact flagsWritten_of_mem hn (by decide)
    · exact flagsWritten_of_mem hn (by decide)
    · exact flagsWritten_of_mem hn (by decide)
    · rw [hn]; decide
  | pla hi => subst hi; exact setZN_keeps (by decide) _ _
  | plp hi => subst hi; exact sameBitsExcept_all _ _
  | rti hi => subst hi; exact sameBitsExcept_all _ _
  | branch _ _ _ _ _ _ => simpa using SameBitsExcept.refl _ s.p
  | _ => exact SameBitsExcept.refl _ s.p

/-- Settles O54: every shared operation keeps the flags that no mnemonic running it lists. -/
theorem unlistedFlagsAreUnchanged : Obligations.UnlistedFlagsAreUnchanged := fun i s =>
  let ⟨f, hexec, he⟩ := exec_effect i
  ⟨f s, hexec s, he.keeps_unlisted_flags s⟩

/-! ## Registers -/

/-- Z and N of a status byte are those of a value (10_state.md R35). -/
def HasZN (v p : Byte) : Prop := p.getLsbD 1 = decide (v = 0) ∧ p.getLsbD 7 = v.getLsbD 7

theorem setZN_hasZN (v p : Byte) : HasZN v (setZN v p) := ⟨(setZN_from v p).1, (setZN_from v p).2.1⟩

/-- An instruction that changes `A` is one of R21's, or a shift of `A`, and leaves Z and N those of `A`. -/
theorem Effect.a_changed {i : Instr} {f : State → State} (he : Effect i f) {s : State} (h : (f s).a ≠ s.a) :
    (i.mnemonic ∈ [Mnemonic.lda, .pla, .txa, .tya, .adc, .sbc, .and, .ora, .eor] ∨ i.mode = .acc) ∧
      HasZN (f s).a (f s).p := by
  cases he with
  | lda _ hn _ _ | adc _ hn _ _ | sbc _ hn _ _ => exact ⟨.inl (by rw [hn]; decide), setZN_hasZN _ _⟩
  | logic _ _ hn _ _ =>
    exact ⟨.inl ((by decide : [Mnemonic.and, .ora, .eor] ⊆ _) hn), setZN_hasZN _ _⟩
  | shiftA _ _ hd => exact ⟨.inr hd, setZN_hasZN _ _⟩
  | loadA _ hn _ =>
    refine ⟨.inl ?_, setZN_hasZN _ _⟩
    rcases hn with ⟨hn, -⟩ | ⟨hn, -⟩ <;> rw [hn] <;> decide
  | pla hi => subst hi; exact ⟨.inl (by decide), setZN_hasZN _ _⟩
  | branch _ _ _ _ _ _ => exact absurd (opBranch_a ..) h
  | _ => exact absurd rfl h

/-- An instruction that changes `X` is one of R22's, and leaves Z and N those of `X`. -/
theorem Effect.x_changed {i : Instr} {f : State → State} (he : Effect i f) {s : State} (h : (f s).x ≠ s.x) :
    i.mnemonic ∈ [Mnemonic.ldx, .tax, .tsx, .inx, .dex] ∧ HasZN (f s).x (f s).p := by
  cases he with
  | ldx _ hn _ _ => exact ⟨by rw [hn]; decide, setZN_hasZN _ _⟩
  | loadX _ hn _ =>
    refine ⟨?_, setZN_hasZN _ _⟩
    rcases hn with ⟨hn, -⟩ | ⟨hn, -⟩ | ⟨hn, -⟩ | ⟨hn, -⟩ <;> rw [hn] <;> decide
  | branch _ _ _ _ _ _ => exact absurd (opBranch_x ..) h
  | _ => exact absurd rfl h

/-- An instruction that changes `Y` is one of R23's, and leaves Z and N those of `Y`. -/
theorem Effect.y_changed {i : Instr} {f : State → State} (he : Effect i f) {s : State} (h : (f s).y ≠ s.y) :
    i.mnemonic ∈ [Mnemonic.ldy, .tay, .iny, .dey] ∧ HasZN (f s).y (f s).p := by
  cases he with
  | ldy _ hn _ _ => exact ⟨by rw [hn]; decide, setZN_hasZN _ _⟩
  | loadY _ hn _ =>
    refine ⟨?_, setZN_hasZN _ _⟩
    rcases hn with ⟨hn, -⟩ | ⟨hn, -⟩ | ⟨hn, -⟩ <;> rw [hn] <;> decide
  | branch _ _ _ _ _ _ => exact absurd (opBranch_y ..) h
  | _ => exact absurd rfl h

/-- An instruction that changes `SP` is a push, a pull, a call, a return or TXS (10_state.md R24). -/
theorem Effect.sp_changed {i : Instr} {f : State → State} (he : Effect i f) {s : State} (h : (f s).sp ≠ s.sp) :
    i.mnemonic ∈ [Mnemonic.pha, .php, .pla, .plp, .jsr, .rts, .rti, .txs] := by
  cases he with
  | jsr _ hi => subst hi; simp [Instr.mnemonic]
  | pha hi | php hi | pla hi | plp hi | rts hi | rti hi | txs hi => subst hi; decide
  | branch _ _ _ _ _ _ => exact absurd (opBranch_sp ..) h
  | _ => exact absurd rfl h

/-- Settles O55, register by register. -/
theorem registersAreWrittenByTheirInstructionsOnly : Obligations.RegistersAreWrittenByTheirInstructionsOnly :=
  fun i s =>
    let ⟨f, hexec, he⟩ := exec_effect i
    ⟨f s, hexec s, he.a_changed, he.x_changed, he.y_changed, he.sp_changed⟩

end Sys2Proof.Machine
end

section
/-! The bits of `P` that are storage only (10_state.md R29 to R31; 42_arithmetic_compare.md R156): what flipping one
before an instruction does to the state after it. -/

namespace Sys2Proof.Machine

/-! ## A flipped bit under the flag computations -/

/-- Flipping a bit of a byte, as every bit sees it. -/
theorem getLsbD_flipped {k : Nat} (hk : k < 8) (p : Byte) (j : Nat) :
    (p ^^^ (1#8 <<< k)).getLsbD j = (p.getLsbD j ^^ decide (j = k)) := by
  have hone : (1#8 <<< k).getLsbD j = decide (j = k) := by
    by_cases hj : j = k
    · simp [hj, hk]
    · simp [BitVec.getLsbD_shiftLeft, hj]; omega
  rw [BitVec.getLsbD_xor, hone]

/-- A flag written at another bit keeps a flipped bit flipped. -/
theorem putFlag_flipped {f : Flag} {k : Nat} (hk : k < 8) (hf : f.bit ≠ k) (b : Bool) (p : Byte) :
    putFlag f b (p ^^^ (1#8 <<< k)) = putFlag f b p ^^^ (1#8 <<< k) := by
  refine eq_of_bits fun j => ?_
  by_cases hj : j = f.bit
  · simp [getLsbD_flipped hk, hj, hf]
  · simp [getLsbD_flipped hk, hj]

/-- A flag written at the flipped bit overwrites it. -/
theorem putFlag_flipped_same (f : Flag) (b : Bool) (p : Byte) :
    putFlag f b (p ^^^ (1#8 <<< f.bit)) = putFlag f b p := by
  refine eq_of_bits fun j => ?_
  have hk : f.bit < 8 := by cases f <;> decide
  by_cases hj : j = f.bit <;> simp [getLsbD_flipped hk, hj]

/-- The bits that are storage only: I, D, and the two bits with no name (10_state.md R29 to R31). -/
def storageBits : List Nat := [2, 3, 4, 5]

section
variable {k : Nat} (hk : k ∈ storageBits)
include hk

theorem lt_of_mem_storageBits : k < 8 := (by decide : ∀ k ∈ storageBits, k < 8) k hk

/-- C, Z, N and V are no storage-only bits. -/
theorem bit_ne_of_mem_storageBits {f : Flag} (hf : f ∈ [Flag.c, .z, .n, .v]) : f.bit ≠ k :=
  (by decide : ∀ k ∈ storageBits, ∀ f ∈ [Flag.c, .z, .n, .v], f.bit ≠ k) k hk f hf

/-- C, Z, N and V read the same in a byte with a storage-only bit flipped. -/
theorem getFlag_flipped {f : Flag} (hf : f ∈ [Flag.c, .z, .n, .v]) (p : Byte) :
    getFlag f (p ^^^ (1#8 <<< k)) = getFlag f p := by
  rw [getFlag, getLsbD_flipped (lt_of_mem_storageBits hk), decide_eq_false (bit_ne_of_mem_storageBits hk hf),
    Bool.xor_false, getFlag]

theorem putFlag_flipped_storage {f : Flag} (hf : f ∈ [Flag.c, .z, .n, .v]) (b : Bool) (p : Byte) :
    putFlag f b (p ^^^ (1#8 <<< k)) = putFlag f b p ^^^ (1#8 <<< k) :=
  putFlag_flipped (lt_of_mem_storageBits hk) (bit_ne_of_mem_storageBits hk hf) b p

theorem setZN_flipped (v p : Byte) : setZN v (p ^^^ (1#8 <<< k)) = setZN v p ^^^ (1#8 <<< k) := by
  simp [setZN, putFlag_flipped_storage hk]

theorem shiftFlags_flipped (r : Byte × Bool) (p : Byte) :
    shiftFlags r (p ^^^ (1#8 <<< k)) = shiftFlags r p ^^^ (1#8 <<< k) := by
  simp [shiftFlags, setZN_flipped hk, putFlag_flipped_storage hk]

theorem compareFlags_flipped (reg m p : Byte) :
    compareFlags reg m (p ^^^ (1#8 <<< k)) = compareFlags reg m p ^^^ (1#8 <<< k) := by
  simp [compareFlags, putFlag_flipped_storage hk]

theorem bitFlags_flipped (a m p : Byte) : bitFlags a m (p ^^^ (1#8 <<< k)) = bitFlags a m p ^^^ (1#8 <<< k) := by
  simp [bitFlags, putFlag_flipped_storage hk]

end

/-! ## A flipped bit under the operations on the state -/

theorem State.flipFlag_p (s : State) (k : Nat) : (s.flipFlag k).p = s.p ^^^ (1#8 <<< k) := rfl
@[simp] theorem State.flipFlag_a (s : State) (k : Nat) : (s.flipFlag k).a = s.a := rfl
@[simp] theorem State.flipFlag_x (s : State) (k : Nat) : (s.flipFlag k).x = s.x := rfl
@[simp] theorem State.flipFlag_y (s : State) (k : Nat) : (s.flipFlag k).y = s.y := rfl
@[simp] theorem State.flipFlag_sp (s : State) (k : Nat) : (s.flipFlag k).sp = s.sp := rfl
@[simp] theorem State.readByte_flipFlag (s : State) (k : Nat) (a : Word) : (s.flipFlag k).readByte a = s.readByte a := rfl

@[simp] theorem State.nextPC_flipFlag (s : State) (k n : Nat) : (s.flipFlag k).nextPC n = s.nextPC n := rfl
@[simp] theorem State.advance_flipFlag (s : State) (k n : Nat) :
    (s.flipFlag k).advance n = (s.advance n).flipFlag k := rfl
@[simp] theorem State.writeByte_flipFlag (s : State) (k : Nat) (a : Word) (v : Byte) :
    (s.flipFlag k).writeByte a v = (s.writeByte a v).flipFlag k := rfl
@[simp] theorem State.pull8_flipFlag (s : State) (k : Nat) :
    (s.flipFlag k).pull8 = (s.pull8.1, s.pull8.2.flipFlag k) := rfl

/-- Putting a flipped byte in `P` is flipping it there. -/
@[simp] theorem State.setP_flipFlag (s : State) (k : Nat) (q : Byte) :
    (s.flipFlag k).setP (q ^^^ (1#8 <<< k)) = (s.setP q).flipFlag k := rfl

@[simp] theorem resolve_flipFlag (m : Addressing) (s : State) (k : Nat) : resolve m (s.flipFlag k) = resolve m s := by
  cases m <;> rfl

@[simp] theorem operand_flipFlag (m : Addressing) (s : State) (k : Nat) : operand m (s.flipFlag k) = operand m s := by
  cases m <;> rfl

@[simp] theorem opBranch_flipFlag (taken : Bool) (d : Byte) (s : State) (k : Nat) :
    opBranch taken d (s.flipFlag k) = (opBranch taken d s).flipFlag k := by
  cases taken <;> rfl

/-- A flag instruction overwrites its own bit and keeps every other one flipped. -/
theorem opFlag_flipFlag {k : Nat} (hk : k < 8) (f : Flag) (b : Bool) (s : State) :
    (k = f.bit → opFlag f b (s.flipFlag k) = opFlag f b s) ∧
    (k ≠ f.bit → opFlag f b (s.flipFlag k) = (opFlag f b s).flipFlag k) := by
  constructor
  · rintro rfl
    simp only [opFlag_eq, State.flipFlag_p, putFlag_flipped_same]
    rfl
  · intro hf
    simp [opFlag, State.flipFlag_p, putFlag_flipped hk hf.symm]

section
variable {k : Nat} (hk : k ∈ storageBits)
include hk

theorem State.loadA_flipFlag (s : State) (v : Byte) : (s.flipFlag k).loadA v = (s.loadA v).flipFlag k := by
  simp only [State.loadA, State.flipFlag, setZN_flipped hk]

theorem State.loadX_flipFlag (s : State) (v : Byte) : (s.flipFlag k).loadX v = (s.loadX v).flipFlag k := by
  simp only [State.loadX, State.flipFlag, setZN_flipped hk]

theorem State.loadY_flipFlag (s : State) (v : Byte) : (s.flipFlag k).loadY v = (s.loadY v).flipFlag k := by
  simp only [State.loadY, State.flipFlag, setZN_flipped hk]

theorem takeSum_flipFlag (r : Sum8) (s : State) : takeSum r (s.flipFlag k) = (takeSum r s).flipFlag k := by
  simp [takeSum, State.flipFlag, setZN_flipped hk, putFlag_flipped_storage hk]

end

/-- The mnemonics that copy or overwrite a storage-only bit. -/
def storageMnemonics : List Mnemonic := [.php, .plp, .rti, .cli, .sei, .cld, .sed]

/-- Each of them is one instruction. -/
theorem mem_of_mem_storageMnemonics {i : Instr} (h : i.mnemonic ∈ storageMnemonics) :
    i ∈ [Instr.php, .plp, .rti, .cli, .sei, .cld, .sed] := by
  cases i <;> simp [Instr.mnemonic, storageMnemonics] at h ⊢

/-- Every other instruction does the same with the bit flipped, and keeps it flipped. -/
theorem Effect.flipFlag_comm {i : Instr} {f : State → State} (he : Effect i f) {k : Nat} (hk : k ∈ storageBits)
    (hi : i.mnemonic ∉ storageMnemonics) (s : State) : f (s.flipFlag k) = (f s).flipFlag k := by
  cases he with
  | lda _ _ _ _ => simp [opLda, State.loadA_flipFlag hk]
  | ldx _ _ _ _ => simp [opLdx, State.loadX_flipFlag hk]
  | ldy _ _ _ _ => simp [opLdy, State.loadY_flipFlag hk]
  | store _ _ hn _ _ => obtain ⟨-, rfl⟩ | ⟨-, rfl⟩ | ⟨-, rfl⟩ := hn <;> simp [opStore]
  | adc _ _ _ _ | sbc _ _ _ _ =>
    simp only [opAdc, opSbc, State.flipFlag_a, State.flipFlag_p, getFlag_flipped hk (.head _), operand_flipFlag,
      takeSum_flipFlag hk, State.advance_flipFlag]
  | compare _ _ hn _ _ =>
    obtain ⟨-, rfl⟩ | ⟨-, rfl⟩ | ⟨-, rfl⟩ := hn <;> simp [opCompare, State.flipFlag_p, compareFlags_flipped hk]
  | logic _ _ _ _ _ => simp [opLogic, State.loadA_flipFlag hk]
  | bit _ _ _ _ => simp [opBit, State.flipFlag_p, bitFlags_flipped hk]
  | shiftA _ _ _ =>
    simp only [opShiftA_eq, State.flipFlag_a, State.flipFlag_p, getFlag_flipped hk (.head _), shiftFlags_flipped hk]
    rfl
  | shiftM _ _ _ _ _ =>
    simp only [opShiftM, resolve_flipFlag, State.readByte_flipFlag, State.writeByte_flipFlag, State.flipFlag_p,
      getFlag_flipped hk (.head _), shiftFlags_flipped hk, State.setP_flipFlag, State.advance_flipFlag]
  | addToMemory _ _ _ _ _ => simp [opAddToMemory, State.flipFlag_p, setZN_flipped hk]
  | loadX _ hn _ =>
    obtain ⟨-, rfl⟩ | ⟨-, rfl⟩ | ⟨-, rfl⟩ | ⟨-, rfl⟩ := hn <;> simp [State.loadX_flipFlag hk]
  | loadY _ hn _ => obtain ⟨-, rfl⟩ | ⟨-, rfl⟩ | ⟨-, rfl⟩ := hn <;> simp [State.loadY_flipFlag hk]
  | loadA _ hn _ => obtain ⟨-, rfl⟩ | ⟨-, rfl⟩ := hn <;> simp [State.loadA_flipFlag hk]
  | branch _ _ _ hf _ _ => simp only [State.flipFlag_p, getFlag_flipped hk hf, opBranch_flipFlag]
  | flag f b hn _ =>
    have hf : f.bit ≠ k := by
      obtain ⟨-, rfl⟩ | ⟨hn, rfl⟩ | ⟨hn, rfl⟩ | ⟨-, rfl⟩ := hn
      · exact bit_ne_of_mem_storageBits hk (by decide)
      · exact absurd ((by decide : _ ⊆ storageMnemonics) hn) hi
      · exact absurd ((by decide : _ ⊆ storageMnemonics) hn) hi
      · exact bit_ne_of_mem_storageBits hk (by decide)
    exact (opFlag_flipFlag (lt_of_mem_storageBits hk) f b s).2 hf.symm
  | php h | plp h | rti h => subst h; exact absurd (by decide) hi
  | pla _ => simp [opPla, State.loadA_flipFlag hk]
  | _ => rfl

/-- Two bytes pushed from one state leave memories that differ only where they were pushed. -/
theorem push8_sameMemoryOutside (s : State) (v w : Byte) :
    SameMemoryOutside [stackAddr s.sp] (s.push8 v).mem (s.push8 w).mem := fun a ha =>
  ((s.push8_spec w).1.2 a ha).trans ((s.push8_spec v).1.2 a ha).symm

/-- Settles O57: the instructions that copy or overwrite one of the bits one by one, the others by their effect. -/
theorem storageOnlyBitsInfluenceNothing : Obligations.StorageOnlyBitsInfluenceNothing := by
  intro i s k hk
  by_cases hi : i.mnemonic ∈ storageMnemonics
  · have hlt := lt_of_mem_storageBits hk
    have hi' := mem_of_mem_storageMnemonics hi
    simp only [List.mem_cons, List.not_mem_nil, or_false] at hi'
    obtain rfl | rfl | rfl | rfl | rfl | rfl | rfl := hi'
    · exact ⟨_, _, rfl, rfl, by simp [Instr.mnemonic], by simp [Instr.mnemonic], by simp [Instr.mnemonic],
        fun _ => ⟨rfl, push8_sameMemoryOutside s _ _⟩⟩
    · exact ⟨opPlp s, opPlp s, rfl, rfl, by simp [Instr.mnemonic]⟩
    · exact ⟨s.returnFromInterrupt, s.returnFromInterrupt, rfl, rfl, by simp [Instr.mnemonic]⟩
    · exact ⟨_, _, rfl, rfl, by simpa [Instr.mnemonic, Flag.bit] using opFlag_flipFlag hlt .i false s⟩
    · exact ⟨_, _, rfl, rfl, by simpa [Instr.mnemonic, Flag.bit] using opFlag_flipFlag hlt .i true s⟩
    · exact ⟨_, _, rfl, rfl, by simpa [Instr.mnemonic, Flag.bit] using opFlag_flipFlag hlt .d false s⟩
    · exact ⟨_, _, rfl, rfl, by simpa [Instr.mnemonic, Flag.bit] using opFlag_flipFlag hlt .d true s⟩
  · obtain ⟨f, hexec, he⟩ := exec_effect i
    refine ⟨f s, f (s.flipFlag k), hexec s, hexec _, fun _ => he.flipFlag_comm hk hi s, ?_,
      fun _ => he.flipFlag_comm hk hi s, ?_⟩
    · rintro (h | ⟨-, h⟩ | ⟨-, h⟩) <;> exact absurd ((by decide : _ ⊆ storageMnemonics) h) hi
    · exact fun h => absurd (by rw [h]; decide) hi

end Sys2Proof.Machine
end

section
/-! Reads and writes of memory, the stack, and where an instruction may change memory (20_memory.md R50 to R61). -/

namespace Sys2Proof.Machine

/-! ## Bytes and words -/

/-- Settles O21, from what a store does to every read. -/
theorem writtenByteReadsBackAndNothingElseChanges : Obligations.WrittenByteReadsBackAndNothingElseChanges := by
  intro s a b v
  obtain ⟨hsame, hother⟩ := s.writeByte_stores a v
  exact ⟨hsame, fun hb => hother b (by simpa using hb), rfl⟩

/-- Settles O23: `0xFFFF + 1` is `0x0000` in words, so the second clause is the first at `0xFFFF`. -/
theorem wordReadIsLittleEndianAndWraps : Obligations.WordReadIsLittleEndianAndWraps :=
  have hword (s : State) (a : Word) :
      (s.readWord a).toNat = 256 * (s.readByte (a + 1)).toNat + (s.readByte a).toNat := mk16_toNat _ _
  ⟨hword, fun s => hword s 0xFFFF⟩

/-! ## The stack -/

/-- The stack is page 0x01 (10_state.md R24; 92_eei_decisions.md D8). -/
theorem stackAddr_toNat (sp : Byte) : (stackAddr sp).toNat = 0x0100 + sp.toNat := mk16_toNat _ _

/-- A pull after a push (20_memory.md R59): the byte and the old stack pointer; the byte stays in memory. -/
theorem State.pull8_push8 (s : State) (v : Byte) : (s.push8 v).pull8 = (v, { s with mem := (s.push8 v).mem }) := by
  have hsp : (s.push8 v).sp + 1 = s.sp := by rw [State.push8_sp]; bv_omega
  rw [State.pull8_spec, hsp, State.readByte_push8]
  rfl

/-- Settles O24. -/
theorem pushStoresThenDecrementsAndPullUndoesIt : Obligations.PushStoresThenDecrementsAndPullUndoesIt :=
  ⟨stackAddr_toNat, fun s v => ⟨_, s.push8_spec v⟩, State.pull8_spec, State.pull8_push8⟩

/-- A push of a word takes the stack pointer down by two (20_memory.md R60). -/
theorem State.push16_sp (s : State) (w : Word) : (s.push16 w).sp = s.sp - 2 := by
  obtain ⟨-, -, -, hall⟩ := s.push16_spec w
  rw [hall]

/-- A pull of a word after a push of one (20_memory.md R61): the pull reads the low byte where the push put it last, and
the high byte where it put it first. -/
theorem State.pull16_push16 (s : State) (w : Word) : (s.push16 w).pull16 = (w, { s with mem := (s.push16 w).mem }) := by
  obtain ⟨hhigh, hlow, -, -⟩ := s.push16_spec w
  have hsp1 : s.sp - 2 + 1 = s.sp - 1 := by bv_omega
  have hsp2 : s.sp - 2 + 2 = s.sp := by bv_omega
  rw [State.pull16_spec, State.push16_sp, hsp1, hsp2, hhigh, hlow, mk16_hi8_lo8]
  rfl

/-- Settles O25. -/
theorem pushedWordIsPulledBack : Obligations.PushedWordIsPulledBack :=
  ⟨fun s w => ⟨s.push16_sp w, s.push16_spec w⟩, State.pull16_spec, State.pull16_push16⟩

/-! ## Where an instruction may change memory -/

/-- The mnemonics with a form that stores to its effective address (20_memory.md R54). -/
def effectiveAddressStorers : List Mnemonic := [.sta, .stx, .sty, .inc, .dec, .asl, .lsr, .rol, .ror]

/-- Such a form stores to its effective address only. -/
theorem storeAddresses_of_addressing {i : Instr} {m : Addressing} (hn : i.mnemonic ∈ effectiveAddressStorers)
    (ha : i.addressing = some m) (s : State) : storeAddresses i s = [resolve m s] := by
  simp only [effectiveAddressStorers, List.mem_cons, List.not_mem_nil, or_false] at hn
  rcases hn with hn | hn | hn | hn | hn | hn | hn | hn | hn <;> simp [storeAddresses, hn, ha]

/-- A byte stored at the effective address leaves every byte that such a form does not store. -/
theorem StoredByte.sameMemoryOutside {i : Instr} {m : Addressing} {s : State} {v : Byte} {mem' : Memory}
    (h : StoredByte (resolve m s) v s.mem mem') (hn : i.mnemonic ∈ effectiveAddressStorers)
    (ha : i.addressing = some m) : SameMemoryOutside (storeAddresses i s) s.mem mem' := by
  rw [storeAddresses_of_addressing hn ha]
  exact h.2

/-- Every shared operation leaves the bytes that no instruction running it stores: it stores at the effective address,
pushes, or leaves memory as it was. -/
theorem Effect.sameMemoryOutside {i : Instr} {f : State → State} (he : Effect i f) (s : State) :
    SameMemoryOutside (storeAddresses i s) s.mem (f s).mem := by
  cases he with
  | store v m hn ha _ =>
    refine (opStore_spec (v s) m s).1.sameMemoryOutside ?_ ha
    obtain ⟨hn, -⟩ | ⟨hn, -⟩ | ⟨hn, -⟩ := hn <;> rw [hn] <;> decide
  | shiftM f m hn ha _ =>
    exact (opShiftM_spec f m s).1.sameMemoryOutside ((by decide : _ ⊆ effectiveAddressStorers) hn) ha
  | addToMemory d m hn ha _ =>
    exact (opAddToMemory_spec d m s).1.sameMemoryOutside ((by decide : _ ⊆ effectiveAddressStorers) hn) ha
  | pha hi => subst hi; exact (s.push8_spec s.a).1.2
  | php hi => subst hi; exact (s.push8_spec s.p).1.2
  | jsr _ hi =>
    subst hi
    obtain ⟨-, -, hrest, -⟩ := s.push16_spec (s.nextPC 2)
    exact hrest
  | branch f want d _ _ _ => exact fun a _ => by rw [opBranch_mem]
  | _ => exact fun _ _ => rfl

/-- Settles O56, by the effect of the instruction. -/
theorem memoryChangesOnlyWhereTheInstructionStores : Obligations.MemoryChangesOnlyWhereTheInstructionStores :=
  fun i s =>
    let ⟨f, hexec, he⟩ := exec_effect i
    ⟨f s, hexec s, he.sameMemoryOutside s⟩

end Sys2Proof.Machine
end

section
/-! The round trip of the encoder and the decoder, the illegal bytes, and the legality matrix (30_encoding.md R80 to
R89; 40_engine_and_addressing.md R104, R119). -/

namespace Sys2Proof

/-! ## From an instruction to its bytes and back -/

/-- A three-byte instruction is read back from the two bytes of its word, whatever follows (30_encoding.md R83). -/
theorem decode_f3_word {op : Byte} {make : Word → Instr} (h : lookupOpcode op = some (.f3 make)) (w : Word)
    (rest : List Byte) : decode (op :: lo8 w :: hi8 w :: rest) = .ok (make w) rest := by
  rw [decode_f3 h, Machine.mk16_hi8_lo8]

/-- Settles O1: the table row of each constructor is of the format that its operand has (30_encoding.md R81): F1 without
an operand, F3 with a word, F2 with a byte. -/
theorem decodingAnEncodedInstructionGivesItBack : Obligations.DecodingAnEncodedInstructionGivesItBack := by
  intro i rest
  cases i with
  | aslAcc | lsrAcc | rolAcc | rorAcc | inx | iny | dex | dey | rts | rti | clc | sec | cld | sed | cli | sei | clv
  | tax | txa | tay | tya | tsx | txs | pha | pla | php | plp | nop | brk => exact decode_f1 rfl rest
  | ldaAbs w | ldaAbx w | ldaAby w | ldxAbs w | ldxAby w | ldyAbs w | ldyAbx w | staAbs w | staAbx w | staAby w
  | stxAbs w | styAbs w | adcAbs w | adcAbx w | adcAby w | sbcAbs w | sbcAbx w | sbcAby w | cmpAbs w | cmpAbx w
  | cmpAby w | cpxAbs w | cpyAbs w | andAbs w | andAbx w | andAby w | oraAbs w | oraAbx w | oraAby w | eorAbs w
  | eorAbx w | eorAby w | bitAbs w | aslAbs w | aslAbx w | lsrAbs w | lsrAbx w | rolAbs w | rolAbx w | rorAbs w
  | rorAbx w | incAbs w | incAbx w | decAbs w | decAbx w | jmpAbs w | jmpInd w | jsr w =>
    exact decode_f3_word rfl w rest
  | _ b => exact decode_f2 rfl b rest

/-- Settles O2: what a decode has read is a row's opcode byte and operand bytes, which the encoder gives back. -/
theorem decodedBytesAreTheEncoding : Obligations.DecodedBytesAreTheEncoding := by
  intro bs i rest h
  obtain ⟨op, f, tail, rfl, hl, hread⟩ := decode_ok_cases h
  have hrow := rowAgrees_of_mem _ (mem_opcodeTable_of_lookup hl)
  obtain ⟨rfl, rfl⟩ | ⟨make, b, rfl, rfl, rfl⟩ | ⟨make, l, u, rfl, rfl, rfl⟩ := hread
  all_goals
    obtain ⟨henc, -⟩ := hrow
    simp [henc]

/-! ## The opcode byte -/

/-- A byte with no row in the table is refused whatever follows it (30_encoding.md R85). -/
theorem decode_illegal {op : Byte} (h : lookupOpcode op = none) (rest : List Byte) :
    decode (op :: rest) = .illegalOpcode op := by
  simp [decode, h]

/-- Two bytes after it are enough for any opcode byte that has a row, whatever they are. -/
theorem decode_ok_of_lookup {op : Byte} {f : OpForm} (h : lookupOpcode op = some f) (b1 b2 : Byte) (rest : List Byte) :
    ∃ i r, decode (op :: b1 :: b2 :: rest) = .ok i r := by
  cases f with
  | f1 i => exact ⟨_, _, decode_f1 h _⟩
  | f2 make => exact ⟨_, _, decode_f2 h _ _⟩
  | f3 make => exact ⟨_, _, decode_f3 h _ _ _⟩

/-- Settles O3: the listed bytes are those without a row. -/
theorem listedBytesAndNoOthersAreIllegal : Obligations.ListedBytesAndNoOthersAreIllegal := by
  refine ⟨rfl, by decide, fun op rest hop => decode_illegal ((lookupOpcode_eq_none op).2 hop) rest,
    fun op b1 b2 rest hop => ?_⟩
  obtain ⟨f, hf⟩ := Option.ne_none_iff_exists'.1 fun hnone => hop ((lookupOpcode_eq_none op).1 hnone)
  exact decode_ok_of_lookup hf b1 b2 rest

/-- A decoded instruction is built by the row of its opcode byte. -/
theorem build_of_decode_ok {op : Byte} {bs rest : List Byte} {i : Instr} (h : decode (op :: bs) = .ok i rest) :
    ∃ f b1 b2, lookupOpcode op = some f ∧ i = f.build b1 b2 := by
  obtain ⟨_, f, _, hbs, hl, hread⟩ := decode_ok_cases h
  obtain ⟨rfl, rfl⟩ := List.cons.inj hbs
  obtain ⟨rfl, -⟩ | ⟨make, b, rfl, -, rfl⟩ | ⟨make, l, u, rfl, -, rfl⟩ := hread
  · exact ⟨_, 0, 0, hl, rfl⟩
  · exact ⟨_, b, 0, hl, rfl⟩
  · exact ⟨_, l, u, hl, rfl⟩

/-- The operand bytes have no part in the mnemonic and mode of the instruction that a row builds (30_encoding.md
R80). -/
theorem RowAgrees.build_mnemonic_mode {op : Byte} {f : OpForm} (h : RowAgrees (op, f)) (b1 b2 c1 c2 : Byte) :
    (f.build b1 b2).mnemonic = (f.build c1 c2).mnemonic ∧ (f.build b1 b2).mode = (f.build c1 c2).mode := by
  cases f with
  | f1 i => exact ⟨rfl, rfl⟩
  | f2 make => exact h.2.1 b1 c1
  | f3 make => exact h.2.1 (mk16 b2 b1) (mk16 c2 c1)

/-- Every instruction has a legal form and encodes to as many bytes as its mode says (30_encoding.md R86, R89). -/
theorem legalEncoding (i : Instr) : Laws.LegalEncoding.Statement i := by
  cases i <;> exact ⟨rfl, rfl⟩

/-- Settles O4: both instructions are built by one row, and the bytes read are the encoding. -/
theorem opcodeByteAloneSelectsTheInstruction : Obligations.OpcodeByteAloneSelectsTheInstruction := by
  constructor
  · intro op bs cs i j r q hi hj
    obtain ⟨f, b1, b2, hf, rfl⟩ := build_of_decode_ok hi
    obtain ⟨g, c1, c2, hg, rfl⟩ := build_of_decode_ok hj
    obtain rfl : f = g := Option.some.inj (hf.symm.trans hg)
    exact (rowAgrees_of_mem _ (mem_opcodeTable_of_lookup hf)).build_mnemonic_mode b1 b2 c1 c2
  · intro bs i r h
    obtain ⟨-, hlen⟩ := legalEncoding i
    rw [decodedBytesAreTheEncoding bs i r h, List.length_append, hlen]

/-- Settles O5: each word is the encoding of its instruction. -/
theorem tableWordsDecodeToTheirInstructions : Obligations.TableWordsDecodeToTheirInstructions :=
  have hdec (i : Instr) : decode (encode i ++ []) = .ok i [] := decodingAnEncodedInstructionGivesItBack i []
  ⟨hdec (.ldaImm 0x05), hdec (.ldaAbx 0x1234), hdec (.stxZpy 0x10), hdec (.adcIzy 0x40), hdec (.bitAbs 0x0300),
    hdec .rorAcc, hdec (.decAbx 0x01FF), hdec (.bne 0xFB), hdec (.jmpInd 0x30FF), hdec .brk⟩

/-! ## The legality matrix -/

/-- The mnemonic and mode pairs of the rows of the opcode table. -/
def tableForms : List (Mnemonic × Mode) :=
  opcodeTable.map fun r => ((r.2.build 0 0).mnemonic, (r.2.build 0 0).mode)

/-- Every pair of the legality matrix (30_encoding.md R89) has a row in the opcode table (R84). -/
theorem mem_tableForms_of_modesOf (mn : Mnemonic) : ∀ md ∈ modesOf mn, (mn, md) ∈ tableForms := by
  cases mn <;> decide

/-- A legal pair is that of an instruction, the one that its row builds. -/
theorem exists_instr_of_legalForm {mn : Mnemonic} {md : Mode} (h : legalForm mn md = true) :
    ∃ i : Instr, i.mnemonic = mn ∧ i.mode = md := by
  have hmem : (mn, md) ∈ tableForms := mem_tableForms_of_modesOf mn md (by simpa [legalForm] using h)
  obtain ⟨r, -, hr⟩ := List.mem_map.1 hmem
  exact ⟨_, congrArg Prod.fst hr, congrArg Prod.snd hr⟩

/-- What the checks on a form ask. -/
theorem formOk_iff {mn : Mnemonic} {md : Mode} {form : Option Addressing} :
    formOk mn md form = true ↔
      legalForm mn md = true ∧ form.isSome = md.resolvable ∧ ∀ m, form = some m → m.mode = md := by
  cases form with
  | none => simp [formOk]
  | some a => simp [formOk, and_comm]

/-- The modes that the resolver is not asked about (40_engine_and_addressing.md R104). -/
theorem Mode.resolvable_eq_false_iff (md : Mode) : md.resolvable = false ↔ md ∈ [Mode.imp, .acc, .rel, .ind] := by
  cases md <;> decide

/-- Settles O6: every instruction passes the checks on its form, and every legal pair has a row. -/
theorem legalFormsAreTheInstructionsThatExist : Obligations.LegalFormsAreTheInstructionsThatExist := by
  have hform (i : Instr) := formOk_iff.1 (legalEncoding i).1
  refine ⟨fun mn md => ⟨exists_instr_of_legalForm, ?_⟩, fun i => ?_, fun i => ?_⟩
  · rintro ⟨i, rfl, rfl⟩
    obtain ⟨hlegal, -⟩ := hform i
    exact hlegal
  · obtain ⟨-, hsome, -⟩ := hform i
    rw [← Mode.resolvable_eq_false_iff, ← hsome, Option.isSome_eq_false_iff, Option.isNone_iff_eq_none]
  · obtain ⟨-, -, hmode⟩ := hform i
    exact hmode

end Sys2Proof
end

section
/-! The step of the engine: what the hook, the fetch and the instruction each do in it, that it always completes, and
the run made of it (40_engine_and_addressing.md R101 to R108; 60_exceptions.md; 70_reset_and_hazards.md R276 to R278). -/

namespace Sys2Proof.Machine

/-! ## Every step completes -/

@[simp] theorem opBranch_hookCalls (taken : Bool) (d : Byte) (s : State) :
    (opBranch taken d s).hookCalls = s.hookCalls := by
  rw [opBranch_spec, State.setPC_hookCalls]

/-- No instruction touches the pending answers of the hook (log entry 3). -/
theorem Effect.hookCalls_kept {i : Instr} {f : State → State} (he : Effect i f) (s : State) :
    (f s).hookCalls = s.hookCalls := by
  cases he with
  | branch _ _ _ _ _ _ => exact opBranch_hookCalls ..
  | _ => rfl

/-- BRK halts (47_flags_transfer_stack_misc.md R232). -/
theorem exec_brk (s : State) : exec .brk s = .next ((s.advance 1).stop .halted) := rfl

/-- Settles O14: BRK by its own meaning, every other instruction by its effect. -/
theorem everyInstructionCompletes : Obligations.EveryInstructionCompletes := by
  intro i s
  by_cases hi : i = .brk
  · subst hi
    exact ⟨_, exec_brk s, rfl, fun _ => rfl, fun hne => absurd rfl hne⟩
  · obtain ⟨f, hexec, he⟩ := exec_effect i
    exact ⟨f s, hexec s, he.hookCalls_kept s, fun hbrk => absurd hbrk hi, fun _ => he.run_kept hi s⟩

/-- The fetch ends in a next state whatever byte it reads: a decode fault is one too (log entry 2). -/
theorem fetchAndExecute_completes (s : State) : ∃ t, fetchAndExecute s = .next t ∧ t.hookCalls = s.hookCalls := by
  obtain ⟨-, hstop⟩ | ⟨form, -, hrun⟩ := fetchAndExecute_cases s
  · exact ⟨_, hstop, rfl⟩
  · obtain ⟨t, hexec, hcalls, -⟩ := everyInstructionCompletes (form.build _ _) s
    exact ⟨t, hrun.trans hexec, hcalls⟩

/-- A step of a running machine ends in a next state whatever the hook does: an abort is one too (log entry 2). -/
theorem stepWith_completes (h : Hook) {s : State} (hr : s.run = .running) :
    ∃ t, stepWith h s = .next t ∧ t.hookCalls = s.hookCalls := by
  obtain ⟨-, hstop⟩ | ⟨-, hgo⟩ := stepWith_running_cases (h := h) hr
  · exact ⟨_, hstop, rfl⟩
  · obtain ⟨t, hfetch, hcalls⟩ := fetchAndExecute_completes (s.withView (h s.view).1)
    exact ⟨t, hgo.trans hfetch, hcalls⟩

/-- The machine's own step is one with some hook, from the state without the answer it takes (log entry 3). -/
theorem step_completes {s : State} (hr : s.run = .running) :
    ∃ t, step s = .next t ∧ t.hookCalls = s.hookCalls.tail := by
  obtain ⟨h, heq⟩ := step_eq_stepWith s
  obtain ⟨t, hstep, hcalls⟩ := stepWith_completes h (s := { s with hookCalls := s.hookCalls.tail }) hr
  exact ⟨t, heq.trans hstep, hcalls⟩

/-- Settles O13. -/
theorem everyStepOfARunningMachineCompletes : Obligations.EveryStepOfARunningMachineCompletes := by
  refine ⟨fun h s hr => ?_, fun s hr => step_completes hr⟩
  obtain ⟨t, hstep, -⟩ := stepWith_completes h hr
  exact ⟨t, hstep⟩

/-! ## The hook's verdict -/

/-- A hook that aborts ends the step (60_exceptions.md R242). -/
theorem stepWith_of_abort {h : Hook} {s : State} {v : HookView} (hr : s.run = .running)
    (hv : h s.view = (v, .abort)) : stepWith h s = .next ((s.withView v).stop .aborted) := by
  obtain ⟨-, hstop⟩ | ⟨hgo, -⟩ := stepWith_running_cases (h := h) hr
  · rwa [hv] at hstop
  · simp [hv] at hgo

/-- A hook that goes on hands the state it leaves to the fetch (40_engine_and_addressing.md R102). -/
theorem stepWith_of_goOn {h : Hook} {s : State} {v : HookView} (hr : s.run = .running)
    (hv : h s.view = (v, .goOn)) : stepWith h s = fetchAndExecute (s.withView v) := by
  obtain ⟨habort, -⟩ | ⟨-, hfetch⟩ := stepWith_running_cases (h := h) hr
  · simp [hv] at habort
  · rwa [hv] at hfetch

/-- With the default hook a step is the fetch alone (60_exceptions.md R254). -/
theorem stepWith_defaultHook {s : State} (hr : s.run = .running) : stepWith defaultHook s = fetchAndExecute s :=
  stepWith_of_goOn (v := s.view) hr rfl

/-- Settles O8. -/
theorem hookIsConsultedBeforeTheFetch : Obligations.HookIsConsultedBeforeTheFetch := fun _ s v hr =>
  ⟨stepWith_of_abort hr, fun hv =>
    (stepWith_of_goOn hr hv).trans (stepWith_defaultHook (s := s.withView v) hr).symm⟩

/-! ## The fetch -/

/-- An illegal byte at `PC` stops the machine there (60_exceptions.md R241). -/
theorem fetchAndExecute_of_illegal {s : State} (hill : s.readByte s.pc ∈ illegalBytes) :
    fetchAndExecute s = .next (s.stop (.faulted (s.readByte s.pc) s.pc)) := by
  obtain ⟨-, hstop⟩ | ⟨f, hl, -⟩ := fetchAndExecute_cases s
  · exact hstop
  · simp [(lookupOpcode_eq_none _).2 hill] at hl

/-- Settles O11. -/
theorem illegalByteStopsTheMachineThere : Obligations.IllegalByteStopsTheMachineThere :=
  fun _ s v hr hv hill => (stepWith_of_goOn hr hv).trans (fetchAndExecute_of_illegal (s := s.withView v) hill)

/-- The three bytes fetched are enough for the decoder, whatever the format: it answers the instruction that the row of
the opcode byte builds (30_encoding.md R81, R83). -/
theorem decode_fetchBytes {s : State} {f : OpForm} (hl : lookupOpcode (s.readByte s.pc) = some f) :
    ∃ rest, decode s.fetchBytes = .ok (f.build (s.readByte (s.nextPC 1)) (s.readByte (s.nextPC 2))) rest := by
  cases f with
  | f1 i => exact ⟨_, decode_f1 hl _⟩
  | f2 make => exact ⟨_, decode_f2 hl _ _⟩
  | f3 make => exact ⟨_, decode_f3 hl _ _ _⟩

/-- The fetch runs what the decoder answers on the bytes at `PC` (40_engine_and_addressing.md R103, R108). -/
theorem fetchAndExecute_of_decode {s : State} {i : Instr} {rest : List Byte}
    (hdec : decode s.fetchBytes = .ok i rest) : fetchAndExecute s = exec i s := by
  obtain ⟨hill, -⟩ | ⟨f, hl, hrun⟩ := fetchAndExecute_cases s
  · cases hdec.symm.trans (decode_illegal ((lookupOpcode_eq_none _).2 hill) _)
  · obtain ⟨rest', hdec'⟩ := decode_fetchBytes hl
    obtain ⟨rfl, -⟩ := Decoded.ok.inj (hdec.symm.trans hdec')
    exact hrun

/-- With no answer pending, the step is that with the default hook (60_exceptions.md R254). -/
theorem step_of_no_answer {s : State} (hq : s.hookCalls = []) : step s = stepWith defaultHook s := by
  simp [step, stepQueued, hq]

/-- Settles O7. -/
theorem stepRunsTheDecodedInstruction : Obligations.StepRunsTheDecodedInstruction := by
  refine ⟨fun _ => rfl, fun s i rest hr hq hdec => ?_⟩
  rw [step_of_no_answer hq, stepWith_defaultHook hr, fetchAndExecute_of_decode hdec]

/-! ## Runs -/

/-- A status is the running one or a terminal one (10_state.md R38). -/
theorem RunStatus.running_or_terminal (r : RunStatus) : r = .running ∨ r.terminal = true := by
  cases r with
  | running => exact .inl rfl
  | halted | faulted _ _ | aborted => exact .inr rfl

/-- What answers a step asked for in a terminal status depends on that status alone (log entry 1). -/
theorem stepWith_eq_of_terminal {h h' : Hook} {s s' : State} (hrun : s'.run = s.run) (ht : s.run.terminal = true) :
    stepWith h' s' = stepWith h s := by
  unfold stepWith
  rw [hrun]
  cases hr : s.run with
  | running => simp [hr, RunStatus.terminal] at ht
  | halted | faulted _ _ | aborted => rfl

/-- While the machine is running, a run begins with the step (70_reset_and_hazards.md R276). -/
theorem State.runFor_succ {s t : State} (hr : s.run = .running) (hs : step s = .next t) (n : Nat) :
    s.runFor (n + 1) = t.runFor n := by
  simp [State.runFor, hr, hs]

/-- A run of `n + k` steps is one of `n` and then one of `k`. -/
theorem State.runFor_add (s : State) (n k : Nat) : s.runFor (n + k) = (s.runFor n).runFor k := by
  induction n generalizing s with
  | zero => rw [Nat.zero_add]; rfl
  | succ n ih =>
    obtain hr | ht := s.run.running_or_terminal
    · obtain ⟨t, hs, -⟩ := step_completes hr
      rw [Nat.add_right_comm, State.runFor_succ hr hs, State.runFor_succ hr hs, ih]
    · simp only [State.runFor_of_terminal ht]

/-- Settles O12: once a run has stopped, what is left of it is a run from a terminal status. -/
theorem terminalStatusHasNoStepAndReportsItsResult : Obligations.TerminalStatusHasNoStepAndReportsItsResult := by
  refine ⟨fun h s ht => ?_, fun s t n hr hs => State.runFor_succ hr hs n, fun s n k ht => ?_, rfl, rfl,
    fun _ _ => rfl, rfl⟩
  · obtain ⟨r, hfault⟩ := stepWith_terminal (h := h) ht
    obtain ⟨h', heq⟩ := step_eq_stepWith s
    have hsame : stepWith h' { s with hookCalls := s.hookCalls.tail } = stepWith h s := stepWith_eq_of_terminal rfl ht
    exact ⟨r, hfault, heq.trans (hsame.trans hfault)⟩
  · rw [State.runFor_add, State.runFor_of_terminal ht]

end Sys2Proof.Machine
end

section
/-! The effective address of each mode, and the operand read there (40_engine_and_addressing.md R104, R110 to R118). -/

namespace Sys2Proof.Machine

/-! ## Effective addresses -/

/-- A byte at an address of the zero page. -/
theorem State.readByte_zext16 (s : State) (b : Byte) : s.readByte (zext16 b) = Memory.read s.mem b.toNat := by
  rw [State.readByte, zext16_toNat]

/-- A sum of two bytes stays in the zero page (40_engine_and_addressing.md R112, R113). -/
theorem zext16_add_toNat (b c : Byte) : (zext16 (b + c)).toNat = (b.toNat + c.toNat) % 256 := by
  rw [zext16_toNat, BitVec.toNat_add]

/-- A byte added to an address wraps at the top of memory (92_eei_decisions.md D7). -/
theorem add_zext16_toNat (w : Word) (c : Byte) : (w + zext16 c).toNat = (w.toNat + c.toNat) % 65536 := by
  rw [BitVec.toNat_add, zext16_toNat]

/-- A pointer's second byte is the next one of the zero page (92_eei_decisions.md D6). -/
theorem zeroPagePointer_toNat (p : Byte) (s : State) :
    (zeroPagePointer p s).toNat =
      256 * (Memory.read s.mem ((p.toNat + 1) % 256)).toNat + (Memory.read s.mem p.toNat).toNat := by
  rw [zeroPagePointer, mk16_toNat, State.readByte_zext16, State.readByte_zext16, BitVec.toNat_add]
  rfl

/-- LDX and STX alone have the mode zero-page indexed by Y (30_encoding.md R89). -/
theorem legalForm_zpy_iff (mn : Mnemonic) : legalForm mn .zpy = true ↔ mn = .ldx ∨ mn = .stx := by
  cases mn <;> decide

/-- Settles O26. -/
theorem directModesGiveTheirEffectiveAddress : Obligations.DirectModesGiveTheirEffectiveAddress := fun s b w =>
  ⟨s.nextPC_toNat 1, zext16_toNat b, zext16_add_toNat b s.x, zext16_add_toNat b s.y, rfl, add_zext16_toNat w s.x,
    add_zext16_toNat w s.y, rfl, ⟨rfl, rfl, rfl, rfl, rfl, rfl, rfl⟩, legalForm_zpy_iff, rfl, rfl, rfl⟩

/-- Settles O27. -/
theorem pointerModesStayInTheZeroPage : Obligations.PointerModesStayInTheZeroPage := by
  intro s b p
  have hp : (b + s.x).toNat = p := BitVec.toNat_add b s.x
  constructor
  · rw [← hp]
    exact zeroPagePointer_toNat (b + s.x) s
  · rw [← zeroPagePointer_toNat b s]
    exact add_zext16_toNat (zeroPagePointer b s) s.y

/-! ## The operand -/

/-- An immediate operand is the second byte of the encoding (30_encoding.md R83). -/
theorem encode_of_imm {i : Instr} {v : Byte} (h : i.addressing = some (.imm v)) : ∃ op, encode i = [op, v] := by
  cases i with
  | ldaImm _ | ldxImm _ | ldyImm _ | adcImm _ | sbcImm _ | cmpImm _ | cpxImm _ | cpyImm _ | andImm _ | oraImm _
  | eorImm _ => cases h; exact ⟨_, rfl⟩
  | _ => cases h

/-- Settles O28: every mode but the immediate one reads its operand there; the immediate operand is the second byte of
the encoding, which is what the fetch read. -/
theorem fetchedOperandIsTheByteAtTheEffectiveAddress : Obligations.FetchedOperandIsTheByteAtTheEffectiveAddress := by
  intro s i rest m hdec ha
  cases m with
  | imm v =>
    obtain ⟨op, henc⟩ := encode_of_imm ha
    have hbytes : s.fetchBytes = [op, v] ++ rest := henc ▸ decodedBytesAreTheEncoding _ _ _ hdec
    obtain ⟨-, htail⟩ := List.cons.inj hbytes
    obtain ⟨hv, -⟩ := List.cons.inj htail
    exact hv.symm
  | zp _ | zpx _ | zpy _ | abs _ | abx _ | aby _ | izx _ | izy _ => rfl

end Sys2Proof.Machine
end

section
/-! Load and store: what taking a byte into a register and storing a register do, in the terms of the statements, and with
it every form of LDA, LDX, LDY, STA, STX, STY (41_load_store.md R140 to R145). -/

namespace Sys2Proof.Machine

/-! ## One lemma per operation -/

/-- A byte taken into `A` (10_state.md R21, R35) and the advance. -/
theorem State.loadA_advance_writes (v : Byte) (n : Nat) (s : State) :
    WritesA s v (BitVec.ofNat 16 n) (.next ((s.loadA v).advance n)) :=
  ⟨_, setZN_from v s.p, rfl⟩

/-- A byte taken into `X` (10_state.md R22, R35) and the advance. -/
theorem State.loadX_advance_writes (v : Byte) (n : Nat) (s : State) :
    WritesX s v (BitVec.ofNat 16 n) (.next ((s.loadX v).advance n)) :=
  ⟨_, setZN_from v s.p, rfl⟩

/-- A byte taken into `Y` (10_state.md R23, R35) and the advance. -/
theorem State.loadY_advance_writes (v : Byte) (n : Nat) (s : State) :
    WritesY s v (BitVec.ofNat 16 n) (.next ((s.loadY v).advance n)) :=
  ⟨_, setZN_from v s.p, rfl⟩

theorem opLda_writes (m : Addressing) (s : State) :
    WritesA s (operand m s) (BitVec.ofNat 16 m.mode.length) (.next (opLda m s)) :=
  State.loadA_advance_writes (operand m s) m.mode.length s

theorem opLdx_writes (m : Addressing) (s : State) :
    WritesX s (operand m s) (BitVec.ofNat 16 m.mode.length) (.next (opLdx m s)) :=
  State.loadX_advance_writes (operand m s) m.mode.length s

theorem opLdy_writes (m : Addressing) (s : State) :
    WritesY s (operand m s) (BitVec.ofNat 16 m.mode.length) (.next (opLdy m s)) :=
  State.loadY_advance_writes (operand m s) m.mode.length s

/-- A store, of any byte in any mode (41_load_store.md R143 to R145). -/
theorem opStore_stores (v : Byte) (m : Addressing) (s : State) :
    Stores s (resolve m s) v (BitVec.ofNat 16 m.mode.length) (.next (opStore v m s)) := by
  obtain ⟨hstored, hframe⟩ := opStore_spec v m s
  exact ⟨_, hstored, congrArg Host.Outcome.next hframe⟩

/-- The encoder's bytes are those of the instruction: the round trip with nothing after them. -/
theorem encodes_encode (i : Instr) : Encodes (encode i) i := by
  have hdec := decodingAnEncodedInstructionGivesItBack i []
  rwa [List.append_nil] at hdec

/-! ## Every form -/

/-- Settles O29: each form is `opLda` in its mode, and its bytes are the encoder's. -/
theorem ldaLoadsTheOperand : Obligations.LdaLoadsTheOperand := fun s b w =>
  ⟨opLda_writes (.imm b) s, opLda_writes (.zp b) s, opLda_writes (.zpx b) s, opLda_writes (.abs w) s,
    opLda_writes (.abx w) s, opLda_writes (.aby w) s, opLda_writes (.izx b) s, opLda_writes (.izy b) s,
    encodes_encode (.ldaImm b), encodes_encode (.ldaZp b), encodes_encode (.ldaZpx b), encodes_encode (.ldaAbs w),
    encodes_encode (.ldaAbx w), encodes_encode (.ldaAby w), encodes_encode (.ldaIzx b), encodes_encode (.ldaIzy b)⟩

/-- Settles O30: each form is `opLdx` or `opLdy` in its mode, and its bytes are the encoder's. -/
theorem ldxAndLdyLoadTheOperand : Obligations.LdxAndLdyLoadTheOperand := fun s b w =>
  ⟨opLdx_writes (.imm b) s, opLdx_writes (.zp b) s, opLdx_writes (.zpy b) s, opLdx_writes (.abs w) s,
    opLdx_writes (.aby w) s,
    opLdy_writes (.imm b) s, opLdy_writes (.zp b) s, opLdy_writes (.zpx b) s, opLdy_writes (.abs w) s,
    opLdy_writes (.abx w) s,
    encodes_encode (.ldxImm b), encodes_encode (.ldxZp b), encodes_encode (.ldxZpy b), encodes_encode (.ldxAbs w),
    encodes_encode (.ldxAby w),
    encodes_encode (.ldyImm b), encodes_encode (.ldyZp b), encodes_encode (.ldyZpx b), encodes_encode (.ldyAbs w),
    encodes_encode (.ldyAbx w)⟩

/-- Settles O31: each form is `opStore` of its register in its mode, and its bytes are the encoder's. -/
theorem storesWriteTheEffectiveAddressOnly : Obligations.StoresWriteTheEffectiveAddressOnly := fun s b w =>
  ⟨opStore_stores s.a (.zp b) s, opStore_stores s.a (.zpx b) s, opStore_stores s.a (.abs w) s,
    opStore_stores s.a (.abx w) s, opStore_stores s.a (.aby w) s, opStore_stores s.a (.izx b) s,
    opStore_stores s.a (.izy b) s,
    opStore_stores s.x (.zp b) s, opStore_stores s.x (.zpy b) s, opStore_stores s.x (.abs w) s,
    opStore_stores s.y (.zp b) s, opStore_stores s.y (.zpx b) s, opStore_stores s.y (.abs w) s,
    encodes_encode (.staZp b), encodes_encode (.staZpx b), encodes_encode (.staAbs w), encodes_encode (.staAbx w),
    encodes_encode (.staAby w), encodes_encode (.staIzx b), encodes_encode (.staIzy b),
    encodes_encode (.stxZp b), encodes_encode (.stxZpy b), encodes_encode (.stxAbs w),
    encodes_encode (.styZp b), encodes_encode (.styZpx b), encodes_encode (.styAbs w)⟩

end Sys2Proof.Machine
end

section
/-! Arithmetic and compare: what the sum with carry is as a number and as a signed number, and with it every form of ADC,
SBC, CMP, CPX, CPY (42_arithmetic_compare.md R151 to R156). -/

namespace Sys2Proof.Machine

/-! ## The sum with carry -/

/-- The one's complement of a byte, as the spec writes it (42_arithmetic_compare.md R152). -/
theorem ofNat_255_sub (m : Byte) : BitVec.ofNat 8 (255 - m.toNat) = ~~~m := by
  apply BitVec.eq_of_toNat_eq
  rw [BitVec.toNat_not, BitVec.toNat_ofNat]
  omega

theorem addWithCarry_value_toNat (a m : Byte) (c : Bool) :
    (addWithCarry a m c).value.toNat = (a.toNat + m.toNat + c.toNat) % 256 :=
  BitVec.toNat_ofNat ..

theorem addWithCarry_carry_iff (a m : Byte) (c : Bool) :
    (addWithCarry a m c).carry = true ↔ 0xFF < a.toNat + m.toNat + c.toNat :=
  decide_eq_true_iff

/-- The operands of the sum can be exchanged, for either carry (42_arithmetic_compare.md R151). -/
theorem addWithCarry_comm (a m : Byte) (c : Bool) : addWithCarry a m c = addWithCarry m a c := by
  simp only [addWithCarry, Nat.add_comm a.toNat, BitVec.and_comm (_ ^^^ m)]

/-- The sign formula, in signs: the result's differs from both operands' (42_arithmetic_compare.md R151). -/
theorem addWithCarry_overflow_iff_msb (a m : Byte) (c : Bool) :
    (addWithCarry a m c).overflow = true ↔
      (addWithCarry a m c).value.msb ≠ m.msb ∧ (addWithCarry a m c).value.msb ≠ a.msb := by
  rw [← bne_iff_ne, ← bne_iff_ne, ← Bool.and_eq_true]
  simp only [addWithCarry, BitVec.msb_eq_getLsbD_last, BitVec.getLsbD_and, BitVec.getLsbD_xor, Bool.bne_eq_xor]

/-- The sign formula says that the signed sum leaves the range of a signed byte. -/
theorem addWithCarry_overflow_iff (a m : Byte) (c : Bool) :
    (addWithCarry a m c).overflow = true ↔
      a.toInt + m.toInt + (c.toNat : Int) < -128 ∨ 127 < a.toInt + m.toInt + (c.toNat : Int) := by
  have hr := addWithCarry_value_toNat a m c
  have hc := c.toNat_le
  have ha := a.isLt
  have hm := m.isLt
  rw [addWithCarry_overflow_iff_msb, BitVec.msb_eq_decide, BitVec.msb_eq_decide, BitVec.msb_eq_decide, hr,
    BitVec.toInt_eq_toNat_cond, BitVec.toInt_eq_toNat_cond]
  simp only [ne_eq, decide_eq_decide]
  split <;> split <;> omega

/-! ## Subtraction as the sum with the complement -/

/-- As a number, the sum with the complement is the difference less the borrow (42_arithmetic_compare.md R152). -/
theorem addWithCarry_not_value_toNat (a m : Byte) (c : Bool) :
    ((addWithCarry a (~~~m) c).value.toNat : Int) = ((a.toNat : Int) - m.toNat - (1 - (c.toNat : Int))) % 256 := by
  have hm := m.isLt
  rw [addWithCarry_value_toNat, BitVec.toNat_not]
  omega

/-- The carry of the sum with the complement means that no borrow is needed (42_arithmetic_compare.md R152). -/
theorem addWithCarry_not_carry_iff (a m : Byte) (c : Bool) :
    (addWithCarry a (~~~m) c).carry = true ↔ m.toNat + (1 - c.toNat) ≤ a.toNat := by
  have hm := m.isLt
  have hc := c.toNat_le
  rw [addWithCarry_carry_iff, BitVec.toNat_not]
  omega

theorem toInt_not_byte (m : Byte) : (~~~m).toInt = -m.toInt - 1 := by
  have hm := m.isLt
  rw [BitVec.toInt_eq_toNat_cond, BitVec.toInt_eq_toNat_cond, BitVec.toNat_not]
  split <;> split <;> omega

/-- The overflow of the sum with the complement says that the signed difference leaves the range of a signed byte. -/
theorem addWithCarry_not_overflow_iff (a m : Byte) (c : Bool) :
    (addWithCarry a (~~~m) c).overflow = true ↔
      a.toInt - m.toInt - (1 - (c.toNat : Int)) < -128 ∨ 127 < a.toInt - m.toInt - (1 - (c.toNat : Int)) := by
  rw [addWithCarry_overflow_iff, toInt_not_byte]
  omega

/-! ## ADC and SBC -/

theorem opAdc_adds (m : Addressing) (s : State) :
    AddsToA s (operand m s) (BitVec.ofNat 16 m.mode.length) (.next (opAdc m s)) :=
  takeSum_adds (operand m s) m.mode.length s

theorem opSbc_adds (m : Addressing) (s : State) :
    AddsToA s (BitVec.ofNat 8 (255 - (operand m s).toNat)) (BitVec.ofNat 16 m.mode.length) (.next (opSbc m s)) := by
  rw [ofNat_255_sub]
  exact takeSum_adds (~~~operand m s) m.mode.length s

/-- Settles O32: each form is `opAdc` in its mode, and its bytes are the encoder's. -/
theorem adcAddsTheOperandAndTheCarry : Obligations.AdcAddsTheOperandAndTheCarry := fun s b w =>
  ⟨opAdc_adds (.imm b) s, opAdc_adds (.zp b) s, opAdc_adds (.zpx b) s, opAdc_adds (.abs w) s,
    opAdc_adds (.abx w) s, opAdc_adds (.aby w) s, opAdc_adds (.izx b) s, opAdc_adds (.izy b) s,
    encodes_encode (.adcImm b), encodes_encode (.adcZp b), encodes_encode (.adcZpx b), encodes_encode (.adcAbs w),
    encodes_encode (.adcAbx w), encodes_encode (.adcAby w), encodes_encode (.adcIzx b), encodes_encode (.adcIzy b)⟩

/-- Settles O33: each form is `opSbc` in its mode, and its bytes are the encoder's. -/
theorem sbcAddsTheComplementAndTheCarry : Obligations.SbcAddsTheComplementAndTheCarry := fun s b w =>
  ⟨opSbc_adds (.imm b) s, opSbc_adds (.zp b) s, opSbc_adds (.zpx b) s, opSbc_adds (.abs w) s,
    opSbc_adds (.abx w) s, opSbc_adds (.aby w) s, opSbc_adds (.izx b) s, opSbc_adds (.izy b) s,
    encodes_encode (.sbcImm b), encodes_encode (.sbcZp b), encodes_encode (.sbcZpx b), encodes_encode (.sbcAbs w),
    encodes_encode (.sbcAbx w), encodes_encode (.sbcAby w), encodes_encode (.sbcIzx b), encodes_encode (.sbcIzy b)⟩

/-- A sum taken into `A` leaves its carry in C (42_arithmetic_compare.md R151). -/
theorem takeSum_carry_iff (r : Sum8) (s : State) : (takeSum r s).p.getLsbD 0 = true ↔ r.carry = true :=
  Bool.eq_iff_iff.1 (sumFlags_bits r s.p).1

/-- A sum taken into `A` leaves its overflow in V (42_arithmetic_compare.md R151). -/
theorem takeSum_overflow_iff (r : Sum8) (s : State) : (takeSum r s).p.getLsbD 6 = true ↔ r.overflow = true :=
  Bool.eq_iff_iff.1 (sumFlags_bits r s.p).2.1

/-- Settles O34: both instructions take a sum with carry into `A`, SBC the one with the complement; its value, carry and
overflow are read as numbers and as signed numbers. -/
theorem overflowIsTheSignedResultOutOfRange : Obligations.OverflowIsTheSignedResultOutOfRange := by
  intro s m c
  constructor
  · have hoverflow := (takeSum_overflow_iff _ s).trans (addWithCarry_overflow_iff s.a m (s.p.getLsbD 0))
    exact ⟨opAdc (.imm m) s, rfl, addWithCarry_value_toNat s.a m _, hoverflow⟩
  · have hcarry := (takeSum_carry_iff _ s).trans (addWithCarry_not_carry_iff s.a m (s.p.getLsbD 0))
    have hoverflow := (takeSum_overflow_iff _ s).trans (addWithCarry_not_overflow_iff s.a m (s.p.getLsbD 0))
    exact ⟨opSbc (.imm m) s, rfl, addWithCarry_not_value_toNat s.a m _, hcarry, hoverflow⟩

/-- An immediate addition is a sum taken into `A`, in which the `A` before stands as an operand only. -/
theorem opAdc_imm_of_a (s : State) (a m : Byte) :
    opAdc (.imm m) { s with a := a } = (takeSum (addWithCarry a m (getFlag .c s.p)) s).advance 2 := rfl

/-- Settles O35: the sum is the same, and nothing else of the state depends on the `A` before. -/
theorem adcIsCommutative : Obligations.AdcIsCommutative := by
  intro s a b
  refine ⟨opAdc (.imm b) { s with a := a }, rfl, congrArg Host.Outcome.next ?_⟩
  rw [opAdc_imm_of_a, opAdc_imm_of_a, addWithCarry_comm]

/-! ## The compares -/

/-- Settles O36: each form is `opCompare` of its register in its mode, and its bytes are the encoder's. -/
theorem comparesWriteFlagsOnly : Obligations.ComparesWriteFlagsOnly := fun s b w =>
  ⟨opCompare_compares s.a (.imm b) s, opCompare_compares s.a (.zp b) s, opCompare_compares s.a (.zpx b) s,
    opCompare_compares s.a (.abs w) s, opCompare_compares s.a (.abx w) s, opCompare_compares s.a (.aby w) s,
    opCompare_compares s.a (.izx b) s, opCompare_compares s.a (.izy b) s,
    opCompare_compares s.x (.imm b) s, opCompare_compares s.x (.zp b) s, opCompare_compares s.x (.abs w) s,
    opCompare_compares s.y (.imm b) s, opCompare_compares s.y (.zp b) s, opCompare_compares s.y (.abs w) s,
    encodes_encode (.cmpImm b), encodes_encode (.cmpZp b), encodes_encode (.cmpZpx b), encodes_encode (.cmpAbs w),
    encodes_encode (.cmpAbx w), encodes_encode (.cmpAby w), encodes_encode (.cmpIzx b), encodes_encode (.cmpIzy b),
    encodes_encode (.cpxImm b), encodes_encode (.cpxZp b), encodes_encode (.cpxAbs w),
    encodes_encode (.cpyImm b), encodes_encode (.cpyZp b), encodes_encode (.cpyAbs w)⟩

end Sys2Proof.Machine
end

section
/-! Logic and bit test: every form of AND, ORA, EOR, BIT (43_logic_bit.md R160 to R163). -/

namespace Sys2Proof.Machine

/-! ## AND, ORA, EOR -/

/-- `A` receives the combination, whatever the two bytes are combined by (43_logic_bit.md R160 to R162). -/
theorem opLogic_writes (f : Byte → Byte → Byte) (m : Addressing) (s : State) :
    WritesA s (f s.a (operand m s)) (BitVec.ofNat 16 m.mode.length) (.next (opLogic f m s)) :=
  State.loadA_advance_writes (f s.a (operand m s)) m.mode.length s

/-- The eight modes that AND, ORA and EOR share: the immediate operand is the byte itself, every other one is read. -/
theorem opLogic_writes_in_each_mode (f : Byte → Byte → Byte) (b : Byte) (w : Word) (s : State) :
    WritesA s (f s.a b) 2 (.next (opLogic f (.imm b) s)) ∧
    WritesA s (f s.a (s.readByte (resolve (.zp b) s))) 2 (.next (opLogic f (.zp b) s)) ∧
    WritesA s (f s.a (s.readByte (resolve (.zpx b) s))) 2 (.next (opLogic f (.zpx b) s)) ∧
    WritesA s (f s.a (s.readByte (resolve (.abs w) s))) 3 (.next (opLogic f (.abs w) s)) ∧
    WritesA s (f s.a (s.readByte (resolve (.abx w) s))) 3 (.next (opLogic f (.abx w) s)) ∧
    WritesA s (f s.a (s.readByte (resolve (.aby w) s))) 3 (.next (opLogic f (.aby w) s)) ∧
    WritesA s (f s.a (s.readByte (resolve (.izx b) s))) 2 (.next (opLogic f (.izx b) s)) ∧
    WritesA s (f s.a (s.readByte (resolve (.izy b) s))) 2 (.next (opLogic f (.izy b) s)) :=
  ⟨opLogic_writes f (.imm b) s, opLogic_writes f (.zp b) s, opLogic_writes f (.zpx b) s, opLogic_writes f (.abs w) s,
    opLogic_writes f (.abx w) s, opLogic_writes f (.aby w) s, opLogic_writes f (.izx b) s, opLogic_writes f (.izy b) s⟩

/-- Settles O37: each form is `opLogic` of its combination in its mode, and its bytes are the encoder's. -/
theorem logicCombinesTheAccumulator : Obligations.LogicCombinesTheAccumulator := fun s b w =>
  ⟨opLogic_writes_in_each_mode (· &&& ·) b w s, opLogic_writes_in_each_mode (· ||| ·) b w s,
    opLogic_writes_in_each_mode (· ^^^ ·) b w s,
    encodes_encode (.andImm b), encodes_encode (.andZp b), encodes_encode (.andZpx b), encodes_encode (.andAbs w),
    encodes_encode (.andAbx w), encodes_encode (.andAby w), encodes_encode (.andIzx b), encodes_encode (.andIzy b),
    encodes_encode (.oraImm b), encodes_encode (.oraZp b), encodes_encode (.oraZpx b), encodes_encode (.oraAbs w),
    encodes_encode (.oraAbx w), encodes_encode (.oraAby w), encodes_encode (.oraIzx b), encodes_encode (.oraIzy b),
    encodes_encode (.eorImm b), encodes_encode (.eorZp b), encodes_encode (.eorZpx b), encodes_encode (.eorAbs w),
    encodes_encode (.eorAbx w), encodes_encode (.eorAby w), encodes_encode (.eorIzx b), encodes_encode (.eorIzy b)⟩

/-! ## BIT -/

/-- Settles O38: both forms are `opBit` in their mode, and their bytes are the encoder's. -/
theorem bitTestsTheOperand : Obligations.BitTestsTheOperand := fun s b w =>
  ⟨opBit_tests (.zp b) s, opBit_tests (.abs w) s, encodes_encode (.bitZp b), encodes_encode (.bitAbs w)⟩

end Sys2Proof.Machine
end

section
/-! Shift and rotate: the four value functions as the spec writes them, every form of ASL, LSR, ROL, ROR, and the
rotates as inverses of each other (44_shift_rotate.md R170 to R178). -/

namespace Sys2Proof.Machine

/-! ## The value functions in numbers -/

/-- A byte moved up by one bit, the bit moved out dropped. -/
theorem ofNat_toNat_shiftLeft (v : Byte) : BitVec.ofNat 8 ((v.toNat <<< 1) % 256) = v <<< 1 := by
  have h : (v <<< 1).toNat = (v.toNat <<< 1) % 256 := BitVec.toNat_shiftLeft
  rw [← h, BitVec.ofNat_toNat, BitVec.setWidth_eq]

/-- A byte moved down by one bit is a byte. -/
theorem ofNat_toNat_shiftRight (v : Byte) : BitVec.ofNat 8 (v.toNat >>> 1) = v >>> 1 := by
  rw [← BitVec.toNat_ushiftRight, BitVec.ofNat_toNat, BitVec.setWidth_eq]

theorem shiftAsl_eq (v : Byte) (c : Bool) :
    shiftAsl v c = (BitVec.ofNat 8 ((v.toNat <<< 1) % 256), v.getLsbD 7) := by
  rw [ofNat_toNat_shiftLeft, shiftAsl]

theorem shiftLsr_eq (v : Byte) (c : Bool) : shiftLsr v c = (BitVec.ofNat 8 (v.toNat >>> 1), v.getLsbD 0) := by
  rw [ofNat_toNat_shiftRight, shiftLsr]

/-- The old carry, as the number that the spec writes, enters at bit 0. -/
theorem shiftRol_eq (v : Byte) (c : Bool) :
    shiftRol v c = (BitVec.ofNat 8 ((v.toNat <<< 1) % 256 ||| c.toNat), v.getLsbD 7) := by
  rw [BitVec.ofNat_or, ofNat_toNat_shiftLeft]
  cases c with
  | false => rfl
  | true => rfl

/-- The old carry, as the number that the spec writes, enters at bit 7. -/
theorem shiftRor_eq (v : Byte) (c : Bool) :
    shiftRor v c = (BitVec.ofNat 8 ((v.toNat >>> 1) ||| (c.toNat <<< 7)), v.getLsbD 0) := by
  rw [BitVec.ofNat_or, ofNat_toNat_shiftRight]
  cases c with
  | false => rfl
  | true => rfl

/-! ## The accumulator forms -/

/-- `A` and C are those of the value function on the old `A` and the old carry. -/
theorem opShiftA_shifts {f : Byte → Bool → Byte × Bool} {s : State} {r : Byte} {c : Bool}
    (hf : f s.a (s.p.getLsbD 0) = (r, c)) : ShiftsA s r c (.next (opShiftA f s)) := by
  have hframe := opShiftA_eq f s
  simp only [getFlag_eq, Flag.bit, hf] at hframe
  exact ⟨_, shiftFlags_from (r, c) s.p, congrArg Host.Outcome.next hframe⟩

/-- Settles O39: each form is `opShiftA` of its value function, and its byte is the encoder's. -/
theorem accumulatorShiftsFollowTheirValueFunctions : Obligations.AccumulatorShiftsFollowTheirValueFunctions := fun s =>
  ⟨opShiftA_shifts (shiftAsl_eq s.a _), opShiftA_shifts (shiftLsr_eq s.a _), opShiftA_shifts (shiftRol_eq s.a _),
    opShiftA_shifts (shiftRor_eq s.a _),
    encodes_encode .aslAcc, encodes_encode .lsrAcc, encodes_encode .rolAcc, encodes_encode .rorAcc⟩

/-! ## The memory forms -/

/-- The byte stored and C are those of the value function on the byte read and the old carry. -/
theorem opShiftM_shifts {f : Byte → Bool → Byte × Bool} {m : Addressing} {s : State} {r : Byte} {c : Bool}
    (hf : f (s.readByte (resolve m s)) (s.p.getLsbD 0) = (r, c)) :
    ShiftsM s (resolve m s) r c (BitVec.ofNat 16 m.mode.length) (.next (opShiftM f m s)) := by
  obtain ⟨hstored, hframe⟩ := opShiftM_spec f m s
  simp only [getFlag_eq, Flag.bit, hf] at hstored hframe
  exact ⟨_, _, shiftFlags_from (r, c) s.p, hstored, congrArg Host.Outcome.next hframe⟩

/-- The four modes that the memory shifts share (44_shift_rotate.md R172, R174, R176, R178). -/
theorem opShiftM_shifts_in_each_mode {f : Byte → Bool → Byte × Bool} {s : State} {r : Byte → Byte} {c : Byte → Bool}
    (hf : ∀ v, f v (s.p.getLsbD 0) = (r v, c v)) (b : Byte) (w : Word) :
    let shifted (m : Addressing) (len : Word) : Prop :=
      ShiftsM s (resolve m s) (r (s.readByte (resolve m s))) (c (s.readByte (resolve m s))) len (.next (opShiftM f m s))
    shifted (.zp b) 2 ∧ shifted (.zpx b) 2 ∧ shifted (.abs w) 3 ∧ shifted (.abx w) 3 :=
  ⟨opShiftM_shifts (hf _), opShiftM_shifts (hf _), opShiftM_shifts (hf _), opShiftM_shifts (hf _)⟩

/-- Settles O40: each form is `opShiftM` of its value function in its mode, and its bytes are the encoder's. -/
theorem memoryShiftsFollowTheirValueFunctions : Obligations.MemoryShiftsFollowTheirValueFunctions := fun _ b w =>
  ⟨opShiftM_shifts_in_each_mode (shiftAsl_eq · _) b w, opShiftM_shifts_in_each_mode (shiftLsr_eq · _) b w,
    opShiftM_shifts_in_each_mode (shiftRol_eq · _) b w, opShiftM_shifts_in_each_mode (shiftRor_eq · _) b w,
    encodes_encode (.aslZp b), encodes_encode (.aslZpx b), encodes_encode (.aslAbs w), encodes_encode (.aslAbx w),
    encodes_encode (.lsrZp b), encodes_encode (.lsrZpx b), encodes_encode (.lsrAbs w), encodes_encode (.lsrAbx w),
    encodes_encode (.rolZp b), encodes_encode (.rolZpx b), encodes_encode (.rolAbs w), encodes_encode (.rolAbx w),
    encodes_encode (.rorZp b), encodes_encode (.rorZpx b), encodes_encode (.rorAbs w), encodes_encode (.rorAbx w)⟩

/-! ## The rotates as inverses of each other -/

/-- ROL moves every bit up by one and puts the carry into bit 0 (44_shift_rotate.md R170). -/
theorem getLsbD_shiftRol (v : Byte) (c : Bool) {k : Nat} (hk : k < 8) :
    (shiftRol v c).1.getLsbD k = if k = 0 then c else v.getLsbD (k - 1) := by
  have hc : (if c then 0x01#8 else 0x00#8).getLsbD k = (c && decide (k = 0)) := by
    cases c with
    | false => exact BitVec.getLsbD_zero
    | true => simp [BitVec.getLsbD_one]
  rw [shiftRol, BitVec.getLsbD_or, hc, BitVec.getLsbD_shiftLeft]
  by_cases h0 : k = 0 <;> simp [h0, hk]

/-- ROR moves every bit down by one and puts the carry into bit 7 (44_shift_rotate.md R170). -/
theorem getLsbD_shiftRor (v : Byte) (c : Bool) (k : Nat) :
    (shiftRor v c).1.getLsbD k = if k = 7 then c else v.getLsbD (k + 1) := by
  have hc : (if c then 0x80#8 else 0x00#8).getLsbD k = (c && decide (k = 7)) := by
    cases c with
    | false => exact BitVec.getLsbD_zero
    | true => exact (BitVec.getLsbD_twoPow 7 k).trans (by simp [eq_comm])
  rw [shiftRor, BitVec.getLsbD_or, hc, BitVec.getLsbD_ushiftRight]
  by_cases h7 : k = 7 <;> simp [h7, Nat.add_comm]

/-- The bit that rotating left takes from the top into the carry goes back there. -/
theorem shiftRor_shiftRol (v : Byte) (c : Bool) : shiftRor (shiftRol v c).1 (shiftRol v c).2 = (v, c) := by
  refine Prod.ext (BitVec.eq_of_getLsbD_eq fun k hk => ?_) ?_
  · rw [getLsbD_shiftRor]
    split
    · next h7 => rw [h7]; rfl
    · next h7 => rw [getLsbD_shiftRol _ _ (by omega), if_neg k.succ_ne_zero, Nat.add_sub_cancel]
  · exact getLsbD_shiftRol v c (by decide)

/-- The bit that rotating right takes from the bottom into the carry goes back there. -/
theorem shiftRol_shiftRor (v : Byte) (c : Bool) : shiftRol (shiftRor v c).1 (shiftRor v c).2 = (v, c) := by
  refine Prod.ext (BitVec.eq_of_getLsbD_eq fun k hk => ?_) ?_
  · rw [getLsbD_shiftRol _ _ hk]
    split
    · next h0 => rw [h0]; rfl
    · next h0 => rw [getLsbD_shiftRor, if_neg (by omega), Nat.sub_add_cancel (by omega)]
  · exact getLsbD_shiftRor v c 7

/-- What a shift of `A` leaves in `A` and C is the value function's answer (44_shift_rotate.md R170). -/
theorem opShiftA_value_carry (f : Byte → Bool → Byte × Bool) (s : State) :
    ((opShiftA f s).a, (opShiftA f s).p.getLsbD 0) = f s.a (s.p.getLsbD 0) := by
  obtain ⟨hc, -⟩ := shiftFlags_from (f s.a (s.p.getLsbD 0)) s.p
  exact Prod.ext rfl hc

/-- A shift of `A` is undone by one whose value function undoes that of the first. -/
theorem opShiftA_undo {f g : Byte → Bool → Byte × Bool} (hg : ∀ v c, g (f v c).1 (f v c).2 = (v, c)) (s : State) :
    (opShiftA g (opShiftA f s)).a = s.a ∧ (opShiftA g (opShiftA f s)).p.getLsbD 0 = s.p.getLsbD 0 := by
  obtain ⟨ha, hc⟩ := Prod.mk.inj (opShiftA_value_carry f s)
  have h := opShiftA_value_carry g (opShiftA f s)
  rw [ha, hc, hg] at h
  exact Prod.mk.inj h

/-- Settles O41: the second rotate undoes the first on the value and the carry, so on `A` and C. -/
theorem rotatesUndoEachOther : Obligations.RotatesUndoEachOther := fun s =>
  ⟨⟨_, _, rfl, rfl, opShiftA_undo shiftRor_shiftRol s⟩, ⟨_, _, rfl, rfl, opShiftA_undo shiftRol_shiftRor s⟩⟩

end Sys2Proof.Machine
end

section
/-! Increment and decrement: counting modulo 256 as an addition of bytes, every form of INC and DEC, and INX, INY, DEX,
DEY (45_incdec.md R180 to R185). -/

namespace Sys2Proof.Machine

/-! ## Counting modulo 256 -/

/-- A byte moved on by `n` modulo 256, as the spec writes it. -/
theorem ofNat_toNat_add_mod (v : Byte) (n : Nat) : BitVec.ofNat 8 ((v.toNat + n) % 256) = v + BitVec.ofNat 8 n := by
  have hmod : BitVec.ofNat 8 ((v.toNat + n) % 256) = BitVec.ofNat 8 (v.toNat + n) :=
    BitVec.eq_of_toNat_eq (Nat.mod_mod _ _)
  rw [hmod, BitVec.ofNat_add, BitVec.ofNat_toNat, BitVec.setWidth_eq]

theorem byte_add_one_eq (v : Byte) : v + 1 = BitVec.ofNat 8 ((v.toNat + 1) % 256) :=
  (ofNat_toNat_add_mod v 1).symm

/-- Down by one is up by 255. -/
theorem byte_add_neg_one_eq (v : Byte) : v + -1 = BitVec.ofNat 8 ((v.toNat + 255) % 256) :=
  (ofNat_toNat_add_mod v 255).symm

theorem byte_sub_one_eq (v : Byte) : v - 1 = BitVec.ofNat 8 ((v.toNat + 255) % 256) :=
  (BitVec.sub_eq_add_neg v 1).trans (byte_add_neg_one_eq v)

/-! ## The memory forms -/

/-- The byte read, moved on by `d`, is stored where it was read (45_incdec.md R180, R181). -/
theorem opAddToMemory_stores {d : Byte} {m : Addressing} {s : State} {r : Byte}
    (hr : s.readByte (resolve m s) + d = r) :
    StoresWithZN s (resolve m s) r (BitVec.ofNat 16 m.mode.length) (.next (opAddToMemory d m s)) := by
  obtain ⟨hstored, hframe⟩ := opAddToMemory_spec d m s
  rw [hr] at hstored hframe
  exact ⟨_, _, setZN_from r s.p, hstored, congrArg Host.Outcome.next hframe⟩

/-- The four modes that INC and DEC share. -/
theorem opAddToMemory_stores_in_each_mode {d : Byte} {r : Byte → Byte} (hr : ∀ v, v + d = r v) (b : Byte) (w : Word)
    (s : State) :
    let stored (m : Addressing) (len : Word) : Prop :=
      StoresWithZN s (resolve m s) (r (s.readByte (resolve m s))) len (.next (opAddToMemory d m s))
    stored (.zp b) 2 ∧ stored (.zpx b) 2 ∧ stored (.abs w) 3 ∧ stored (.abx w) 3 :=
  ⟨opAddToMemory_stores (hr _), opAddToMemory_stores (hr _), opAddToMemory_stores (hr _), opAddToMemory_stores (hr _)⟩

/-- Settles O42: each form is `opAddToMemory` of 1 or -1 in its mode, and its bytes are the encoder's. -/
theorem incAndDecWrapTheByteAtTheEffectiveAddress : Obligations.IncAndDecWrapTheByteAtTheEffectiveAddress :=
  fun s b w =>
  ⟨opAddToMemory_stores_in_each_mode byte_add_one_eq b w s, opAddToMemory_stores_in_each_mode byte_add_neg_one_eq b w s,
    encodes_encode (.incZp b), encodes_encode (.incZpx b), encodes_encode (.incAbs w), encodes_encode (.incAbx w),
    encodes_encode (.decZp b), encodes_encode (.decZpx b), encodes_encode (.decAbs w), encodes_encode (.decAbx w)⟩

/-! ## The index registers -/

/-- Settles O43: each instruction takes the byte counted up or down into its register, and its byte is the encoder's. -/
theorem indexRegistersCountModulo256 : Obligations.IndexRegistersCountModulo256 := by
  intro s
  rw [← byte_add_one_eq s.x, ← byte_add_one_eq s.y, ← byte_sub_one_eq s.x, ← byte_sub_one_eq s.y]
  exact ⟨State.loadX_advance_writes (s.x + 1) 1 s, State.loadY_advance_writes (s.y + 1) 1 s,
    State.loadX_advance_writes (s.x - 1) 1 s, State.loadY_advance_writes (s.y - 1) 1 s,
    encodes_encode .inx, encodes_encode .iny, encodes_encode .dex, encodes_encode .dey⟩

end Sys2Proof.Machine
end

section
/-! Control transfer: where each branch, jump, call and return takes `PC`, what a call and a return do to the stack, and a
return after a call (46_control_flow.md R190 to R203). -/

namespace Sys2Proof.Machine

/-! ## Branches -/

/-- A branch when a flag is set (46_control_flow.md R192, R193, R195, R198). -/
theorem opBranch_branches_if_set (f : Flag) (d : Byte) (s : State) :
    Branches s (s.p.getLsbD f.bit == true) d (.next (opBranch (getFlag f s.p) d s)) := by
  rw [beq_true]
  exact opBranch_branches _ d s

/-- A branch when a flag is clear (46_control_flow.md R191, R194, R196, R197). -/
theorem opBranch_branches_if_clear (f : Flag) (d : Byte) (s : State) :
    Branches s (s.p.getLsbD f.bit == false) d (.next (opBranch (!getFlag f s.p) d s)) := by
  rw [beq_false]
  exact opBranch_branches _ d s

/-- Settles O44: each branch is `opBranch` on its flag, and its bytes are the encoder's. -/
theorem branchesGoToTheDisplacedAddress : Obligations.BranchesGoToTheDisplacedAddress := fun s d =>
  ⟨opBranch_branches_if_clear .c d s, opBranch_branches_if_set .c d s, opBranch_branches_if_set .z d s,
    opBranch_branches_if_clear .z d s, opBranch_branches_if_set .n d s, opBranch_branches_if_clear .n d s,
    opBranch_branches_if_clear .v d s, opBranch_branches_if_set .v d s,
    encodes_encode (.bcc d), encodes_encode (.bcs d), encodes_encode (.beq d), encodes_encode (.bne d),
    encodes_encode (.bmi d), encodes_encode (.bpl d), encodes_encode (.bvc d), encodes_encode (.bvs d)⟩

/-! ## One lemma per jump, call and return -/

/-- The target of JMP indirect (46_control_flow.md R200) for a pointer given by its bytes. -/
theorem indirectTarget_mk16 (h l : Byte) (s : State) :
    indirectTarget (mk16 h l) s = mk16 (s.readByte (mk16 h (l + 1))) (s.readByte (mk16 h l)) := by
  rw [indirectTarget, hi8_mk16, lo8_mk16]

/-- A call (46_control_flow.md R201): the memory is that of the push, the stack pointer two down, `PC` the target. -/
theorem opJsr_spec (w : Word) (s : State) :
    opJsr w s = { s with mem := (s.push16 (s.nextPC 2)).mem, sp := s.sp - 2, pc := w } := by
  obtain ⟨-, -, -, hpush⟩ := s.push16_spec (s.nextPC 2)
  exact congrArg (State.setPC · w) hpush

/-- A return (46_control_flow.md R202): the stack pointer two up, `PC` one past the word pulled, nothing else. -/
theorem opRts_spec (s : State) :
    opRts s = { s with sp := s.sp + 2,
                       pc := mk16 (s.readByte (stackAddr (s.sp + 2))) (s.readByte (stackAddr (s.sp + 1))) + 1 } := by
  rw [opRts, State.pull16_spec]
  rfl

/-- A return from interrupt (46_control_flow.md R203): `P` from the first byte pulled, `PC` from the two after it, the
stack pointer three up, nothing else. -/
theorem State.returnFromInterrupt_spec (s : State) :
    s.returnFromInterrupt =
      { s with sp := s.sp + 3, p := s.readByte (stackAddr (s.sp + 1)),
               pc := mk16 (s.readByte (stackAddr (s.sp + 3))) (s.readByte (stackAddr (s.sp + 2))) } := by
  have h2 : s.sp + 2 = s.sp + 1 + 1 := by bv_omega
  have h3 : s.sp + 3 = s.sp + 1 + 2 := by bv_omega
  rw [State.returnFromInterrupt, State.pull8_spec, State.pull16_spec, h2, h3]
  rfl

/-- Settles O45: each is its operation on `PC`; the bytes are read by the decoder as the word they make. -/
theorem jumpsAndRtsSetTheProgramCounter : Obligations.JumpsAndRtsSetTheProgramCounter := fun s b1 b2 =>
  ⟨rfl, congrArg (fun w => Host.Outcome.next (s.setPC w)) (indirectTarget_mk16 b2 b1 s),
    congrArg Host.Outcome.next (opRts_spec s),
    decode_f3 rfl b1 b2 [], decode_f3 rfl b1 b2 [], encodes_encode .rts⟩

/-- Settles O46: what the push of a word stores, and what the pulls of RTI read. -/
theorem jsrPushesAndRtiPulls : Obligations.JsrPushesAndRtiPulls := by
  refine ⟨fun s w => ?_, fun s => congrArg Host.Outcome.next s.returnFromInterrupt_spec,
    fun w => ⟨encodes_encode (.jsr w), encodes_encode .rti⟩⟩
  obtain ⟨hhigh, hlow, hrest, -⟩ := s.push16_spec (s.nextPC 2)
  exact ⟨_, congrArg Host.Outcome.next (opJsr_spec w s), hhigh, hlow, hrest⟩

/-! ## A return after a call -/

/-- A pull does not look at `PC`. -/
theorem State.pull16_setPC (s : State) (w : Word) : (s.setPC w).pull16 = (s.pull16.1, s.pull16.2.setPC w) := rfl

/-- A return after a call: the word pulled is the word pushed, the address of the call's last byte
(92_eei_decisions.md D2), and the stack pointer is back where it was. -/
theorem opRts_opJsr (w : Word) (s : State) :
    opRts (opJsr w s) = { s with mem := (s.push16 (s.nextPC 2)).mem, pc := s.pc + 3 } := by
  have hpc : s.pc + 3 = s.nextPC 2 + 1 := (BitVec.add_assoc s.pc 2 1).symm
  rw [opRts, opJsr, State.pull16_setPC, State.pull16_push16, hpc]
  rfl

/-- Settles O47: the push of the call is the one change of memory. -/
theorem callThenReturnContinuesAfterTheCall : Obligations.CallThenReturnContinuesAfterTheCall := by
  intro s w
  have hreturn := opRts_opJsr w s
  obtain ⟨-, -, hrest, -⟩ := s.push16_spec (s.nextPC 2)
  exact ⟨opJsr w s, _, rfl, rfl, congrArg Host.Outcome.next hreturn, rfl, hrest⟩

end Sys2Proof.Machine
end

section
/-! Flags, transfers, stack, no-op and halt: what a pull into `A` or `P` and a push instruction do, in the terms of the
statements, and the byte that a pull after a push gives back (47_flags_transfer_stack_misc.md R210 to R227, R232). -/

namespace Sys2Proof.Machine

/-! ## Flags, no-op, halt -/

/-- Settles O48: each instruction is `opFlag` on its flag, and its byte is the encoder's. -/
theorem flagInstructionsWriteTheirBitOnly : Obligations.FlagInstructionsWriteTheirBitOnly := fun s =>
  ⟨opFlag_writes .c false s, opFlag_writes .c true s, opFlag_writes .d false s, opFlag_writes .d true s,
    opFlag_writes .i false s, opFlag_writes .i true s,
    encodes_encode .clc, encodes_encode .sec, encodes_encode .cld, encodes_encode .sed, encodes_encode .cli,
    encodes_encode .sei⟩

/-- NOP is the advance (47_flags_transfer_stack_misc.md R227). -/
theorem exec_nop (s : State) : exec .nop s = .next { s with pc := s.pc + 1 } := rfl

/-- Settles O49: a transfer takes a register's byte as a load takes its operand. -/
theorem taxTxaCopyAndNopOnlyAdvances : Obligations.TaxTxaCopyAndNopOnlyAdvances := fun s =>
  ⟨State.loadX_advance_writes s.a 1 s, State.loadA_advance_writes s.x 1 s, exec_nop s,
    encodes_encode .tax, encodes_encode .txa, encodes_encode .nop⟩

/-- Settles O52: BRK is the advance and the stop, and a stop changes the run status alone. -/
theorem brkHaltsAndChangesNothingElse : Obligations.BrkHaltsAndChangesNothingElse := by
  intro s
  have hstop := (s.advance 1).stop_spec .halted
  exact ⟨(exec_brk s).trans (congrArg Host.Outcome.next hstop), encodes_encode .brk⟩

/-! ## Pushes and pulls -/

/-- A push instruction of one byte (47_flags_transfer_stack_misc.md R223, R225): the push and the advance. -/
theorem State.push8_advance_pushes (v : Byte) (s : State) : Pushes s v (.next ((s.push8 v).advance 1)) := by
  obtain ⟨hstored, hframe⟩ := s.push8_spec v
  exact ⟨_, hstored, congrArg (fun t => Host.Outcome.next (t.advance 1)) hframe⟩

/-- PLA (47_flags_transfer_stack_misc.md R224): the byte above the stack pointer to `A`, Z and N from it, the stack
pointer one up, nothing else. -/
theorem opPla_spec (s : State) :
    opPla s = { s with a := s.readByte (stackAddr (s.sp + 1)), p := setZN (s.readByte (stackAddr (s.sp + 1))) s.p,
                       sp := s.sp + 1, pc := s.pc + 1 } := by
  rw [opPla, State.pull8_spec]
  rfl

/-- PLP (47_flags_transfer_stack_misc.md R226): the byte above the stack pointer to `P`, the stack pointer one up,
nothing else. -/
theorem opPlp_spec (s : State) :
    opPlp s = { s with p := s.readByte (stackAddr (s.sp + 1)), sp := s.sp + 1, pc := s.pc + 1 } := by
  rw [opPlp, State.pull8_spec]
  rfl

/-- Settles O50: CLV is `opFlag`, the transfers take a register's byte as a load takes its operand, PLA the byte
pulled. -/
theorem unlistedMembersFollowTheirGroups : Obligations.UnlistedMembersFollowTheirGroups := fun s =>
  ⟨opFlag_writes .v false s, State.loadY_advance_writes s.a 1 s, State.loadA_advance_writes s.y 1 s,
    State.loadX_advance_writes s.sp 1 s, rfl, ⟨_, setZN_from _ s.p, congrArg Host.Outcome.next (opPla_spec s)⟩,
    encodes_encode .clv, encodes_encode .tay, encodes_encode .tya, encodes_encode .tsx, encodes_encode .txs,
    encodes_encode .pla⟩

/-- Settles O51: one push lemma for both registers, and PLP by its own meaning. -/
theorem phaPhpPushAndPlpPulls : Obligations.PhaPhpPushAndPlpPulls := fun s =>
  ⟨State.push8_advance_pushes s.a s, State.push8_advance_pushes s.p s, congrArg Host.Outcome.next (opPlp_spec s),
    encodes_encode .pha, encodes_encode .php, encodes_encode .plp⟩

/-! ## A pull after a push -/

/-- A pull looks at the memory and the stack pointer alone: right after a push of `v` it gives `v` and the old stack
pointer, whatever was written to the other fields in between. -/
theorem State.pull8_after_push8 {s t : State} {v : Byte} (hmem : t.mem = (s.push8 v).mem)
    (hsp : t.sp = (s.push8 v).sp) : t.pull8 = (v, { t with sp := s.sp }) := by
  have hup : t.sp + 1 = s.sp := by rw [hsp, State.push8_sp]; bv_omega
  have hbyte : t.readByte (stackAddr s.sp) = v := by rw [State.readByte, hmem]; exact s.readByte_push8 v
  rw [State.pull8_spec, hup, hbyte]

/-- PLA after a push: the byte pushed is in `A`, the stack pointer is back. -/
theorem opPla_after_push8 {s t : State} {v : Byte} (hmem : t.mem = (s.push8 v).mem) (hsp : t.sp = (s.push8 v).sp) :
    (opPla t).a = v ∧ (opPla t).sp = s.sp := by
  rw [opPla, State.pull8_after_push8 hmem hsp]
  exact ⟨rfl, rfl⟩

/-- PLP after a push: the byte pushed is in `P`, the stack pointer is back. -/
theorem opPlp_after_push8 {s t : State} {v : Byte} (hmem : t.mem = (s.push8 v).mem) (hsp : t.sp = (s.push8 v).sp) :
    (opPlp t).p = v ∧ (opPlp t).sp = s.sp := by
  rw [opPlp, State.pull8_after_push8 hmem hsp]
  exact ⟨rfl, rfl⟩

/-- Settles O53: the advance and the register overwritten with zero leave the memory and the stack pointer of the
push. -/
theorem pushThenPullRestoresTheByte : Obligations.PushThenPullRestoresTheByte := fun s =>
  ⟨⟨(s.push8 s.a).advance 1, _, rfl, rfl, opPla_after_push8 rfl rfl⟩,
    ⟨(s.push8 s.p).advance 1, _, rfl, rfl, opPlp_after_push8 rfl rfl⟩⟩

end Sys2Proof.Machine
end

section
/-! Load and reset: what they leave in memory and in the registers, and that they establish the invariant
(10_state.md R39, R40; 70_reset_and_hazards.md R270 to R274). -/

namespace Sys2Proof.Machine

/-! ## Load -/

/-- An image fits when it does not wrap and no byte of it falls on the reset vector (92_eei_decisions.md D15). -/
theorem imageFits_iff (base : Word) (prog : List Byte) :
    imageFits base prog = true ↔
      base.toNat + prog.length ≤ Config.addressSpace ∧
      ∀ k, k < prog.length → base.toNat + k ≠ 0xFFFC ∧ base.toNat + k ≠ 0xFFFD := by
  simp only [imageFits, Bool.and_eq_true, decide_eq_true_eq, and_assoc]
  constructor
  · rintro ⟨hspace, hlow, hhigh⟩
    exact ⟨hspace, fun k hk => by omega⟩
  · rintro ⟨hspace, hvector⟩
    have hlow := hvector (0xFFFC - base.toNat)
    have hhigh := hvector (0xFFFD - base.toNat)
    exact ⟨hspace, by omega, by omega⟩

/-- The state a load that fits leaves: the image, then the reset vector (70_reset_and_hazards.md R273). -/
def State.loaded (s : State) (base : Word) (prog : List Byte) : State :=
  ((s.copyImage base prog).writeByte Config.resetVector (lo8 base)).writeByte (Config.resetVector + 1) (hi8 base)

/-- A load that fits (70_reset_and_hazards.md R273). -/
theorem State.load_of_fits (s : State) {base : Word} {prog : List Byte} (h : imageFits base prog = true) :
    s.load base prog = .next (s.loaded base prog) := if_pos h

/-- A load that does not fit is refused (92_eei_decisions.md D15). -/
theorem State.load_of_not_fits (s : State) {base : Word} {prog : List Byte} (h : ¬ imageFits base prog = true) :
    s.load base prog = .refused .imageDoesNotFit := if_neg h

/-- A load that answers a next state answers the loaded one. -/
theorem State.eq_loaded_of_load {s t : State} {base : Word} {prog : List Byte} (h : s.load base prog = .next t) :
    t = s.loaded base prog := by
  by_cases hfit : imageFits base prog = true
  · exact Host.Outcome.next.inj (h.symm.trans (s.load_of_fits hfit))
  · cases h.symm.trans (s.load_of_not_fits hfit)

/-- A load keeps memory canonical (log entry 13). -/
theorem State.wf_loaded {s : State} (base : Word) (prog : List Byte) (h : Memory.wf s.mem = true) :
    Memory.wf (s.loaded base prog).mem = true :=
  State.wf_writeByte _ _ (State.wf_writeByte _ _ (State.wf_copyImage base prog h))

/-- A load changes memory alone. -/
theorem State.loaded_spec (s : State) (base : Word) (prog : List Byte) :
    s.loaded base prog = { s with mem := (s.loaded base prog).mem } :=
  congrArg (fun u : State => { u with mem := (s.loaded base prog).mem }) (s.copyImage_spec base prog)

/-- What a load leaves at every address: the vector was written last. -/
theorem State.readByte_loaded (s : State) {base : Word} {prog : List Byte} (a : Word)
    (hfit : base.toNat + prog.length ≤ Config.addressSpace) :
    (s.loaded base prog).readByte a =
      if a = 0xFFFD then hi8 base else if a = 0xFFFC then lo8 base
      else if h : base.toNat ≤ a.toNat ∧ a.toNat < base.toNat + prog.length then prog[a.toNat - base.toNat]'(by omega)
      else s.readByte a := by
  rw [State.loaded, State.readByte_writeByte, State.readByte_writeByte, State.readByte_copyImage _ _ _ _ hfit]
  rfl

/-- The vector of a loaded memory is the load base, little-endian. -/
theorem State.readByte_loaded_vector (s : State) {base : Word} {prog : List Byte}
    (hfit : base.toNat + prog.length ≤ Config.addressSpace) :
    (s.loaded base prog).readByte 0xFFFC = lo8 base ∧ (s.loaded base prog).readByte 0xFFFD = hi8 base := by
  simp [State.readByte_loaded s _ hfit]

/-- Inside an image that fits, a loaded memory holds the image. -/
theorem State.read_loaded_image (s : State) {base : Word} {prog : List Byte} (hfit : imageFits base prog = true)
    {k : Nat} (hk : k < prog.length) : Memory.read (s.loaded base prog).mem (base.toNat + k) = prog[k] := by
  obtain ⟨hspace, hvector⟩ := (imageFits_iff base prog).1 hfit
  obtain ⟨hlow, hhigh⟩ := hvector k hk
  have hlt : base.toNat + k < 2 ^ 16 := Nat.lt_of_lt_of_le (Nat.add_lt_add_left hk _) hspace
  have ha : (base + BitVec.ofNat 16 k).toNat = base.toNat + k := by
    rw [BitVec.toNat_add, BitVec.toNat_ofNat, Nat.add_mod_mod, Nat.mod_eq_of_lt hlt]
  have hread := s.readByte_loaded (base + BitVec.ofNat 16 k) hspace
  rw [if_neg fun h => hhigh (ha.symm.trans (congrArg BitVec.toNat h)),
    if_neg fun h => hlow (ha.symm.trans (congrArg BitVec.toNat h)), dif_pos (by omega)] at hread
  simpa only [State.readByte, ha, Nat.add_sub_cancel_left] using hread

/-- Outside the image and the vector, a load leaves memory as it was. -/
theorem State.readByte_loaded_other (s : State) {base a : Word} {prog : List Byte}
    (hfit : base.toNat + prog.length ≤ Config.addressSpace)
    (hout : a.toNat < base.toNat ∨ base.toNat + prog.length ≤ a.toNat) (hlow : a ≠ 0xFFFC) (hhigh : a ≠ 0xFFFD) :
    (s.loaded base prog).readByte a = s.readByte a := by
  rw [State.readByte_loaded s a hfit, if_neg hhigh, if_neg hlow, dif_neg (by omega)]

/-- Settles O19, by when an image fits and what the loaded memory holds at each address. -/
theorem loadWritesTheImageAndTheResetVector : Obligations.LoadWritesTheImageAndTheResetVector := by
  refine ⟨fun s base prog hspace hvector => ?_, fun s base prog hbad => s.load_of_not_fits fun hfit => ?_⟩
  · have hfit := (imageFits_iff base prog).2 ⟨hspace, hvector⟩
    obtain ⟨hlow, hhigh⟩ := s.readByte_loaded_vector hspace
    exact ⟨_, (s.load_of_fits hfit).trans (congrArg _ (s.loaded_spec base prog)), fun _ => s.read_loaded_image hfit,
      hlow, hhigh, fun _ => s.readByte_loaded_other hspace⟩
  · obtain ⟨hspace, hvector⟩ := (imageFits_iff base prog).1 hfit
    obtain hwrap | ⟨k, hk, hcover⟩ := hbad
    · exact absurd hspace (Nat.not_le.2 hwrap)
    · obtain ⟨hlow, hhigh⟩ := hvector k hk
      exact hcover.elim hlow hhigh

/-! ## Reset -/

/-- A reset starts the machine at the word that the vector holds (70_reset_and_hazards.md R271). -/
theorem State.assertReset_of_vector {s : State} {w : Word} (hlow : s.readByte 0xFFFC = lo8 w)
    (hhigh : s.readByte 0xFFFD = hi8 w) :
    s.assertReset = { s with a := 0x00, x := 0x00, p := 0x00, sp := 0xFD, run := .running, pc := w } := by
  rw [resetSetsTheListedRegistersOnly s, hlow, hhigh, mk16_hi8_lo8]

/-- Settles O20, by the load of O19 and the reset from the vector it writes. -/
theorem freshProcessorStartsAtTheLoadBase : Obligations.FreshProcessorStartsAtTheLoadBase := by
  obtain ⟨hfits, -⟩ := loadWritesTheImageAndTheResetVector
  intro base prog hspace hvector
  obtain ⟨m, hload, himage, hlow, hhigh, -⟩ := hfits State.powerOn base prog hspace hvector
  exact ⟨_, hload, State.assertReset_of_vector hlow hhigh, himage⟩

/-- A reset from canonical memory establishes the invariant: it keeps memory, and the machine is running. -/
theorem inv_assertReset {s : State} (h : Memory.wf s.mem = true) : Inv s.assertReset := ⟨h, trivial⟩

/-- Settles O60: the step by what a step with a hook ends in, the reset by the status it sets, the load by the form of
the memory it leaves. -/
theorem hooksResetAndLoadKeepTheInvariant : Obligations.HooksResetAndLoadKeepTheInvariant := by
  refine ⟨fun h s t hh ⟨hw, _⟩ hs => inv_of_stepWith hh hw hs, fun s hw => inv_assertReset hw,
    fun s t base prog hw hload => ?_⟩
  obtain rfl := State.eq_loaded_of_load hload
  have hwt := State.wf_loaded base prog hw
  exact ⟨hwt, inv_assertReset hwt⟩

end Sys2Proof.Machine
end

section
/-! The hook's answers held as data (60_exceptions.md R252 to R254; log entry 3): a pending answer acts as a hook, and
every hook's answer to a state can be written as one. -/

namespace Sys2Proof.Machine

/-! ## A pending answer is a hook -/

/-- With an answer pending, the step is that with the answer as the hook. -/
theorem step_of_answer {s : State} {c : HookCall} {rest : List HookCall} (hq : s.hookCalls = c :: rest) :
    step s = stepWith c.toHook { s with hookCalls := rest } := by
  simp [step, stepQueued, hq]

/-- Settles O9. -/
theorem queuedAnswersActAsTheHook : Obligations.QueuedAnswersActAsTheHook :=
  ⟨fun _ => step_of_no_answer, fun _ _ _ => step_of_answer, fun _ => ⟨rfl, rfl⟩⟩

/-! ## A hook's answer is data -/

/-- A step asks the hook about the state it starts from and nothing else (60_exceptions.md R252). -/
theorem stepWith_congr {h h' : Hook} {s : State} (hv : h s.view = h' s.view) : stepWith h s = stepWith h' s := by
  obtain hr | ht := s.run.running_or_terminal
  · rcases hd : h' s.view with ⟨v, verdict⟩
    cases verdict with
    | abort => exact (stepWith_of_abort hr (hv.trans hd)).trans (stepWith_of_abort hr hd).symm
    | goOn => exact (stepWith_of_goOn hr (hv.trans hd)).trans (stepWith_of_goOn hr hd).symm
  · exact stepWith_eq_of_terminal rfl ht

/-- The writes that copy the bytes at some addresses from a memory. -/
def memoryWrites (m : Memory) (addrs : List Word) : List HookWrite :=
  addrs.map fun a => .mem a (Memory.read m a.toNat)

/-- Every address of the machine (00_scope.md R5). -/
def allAddresses : List Word := (List.finRange (2 ^ 16)).map BitVec.ofFin

theorem mem_allAddresses (a : Word) : a ∈ allAddresses :=
  List.mem_map_of_mem (List.mem_finRange a.toFin)

/-- The writes that make any state the hook sees the given one: every register, then every byte of memory. -/
def HookView.toWrites (v : HookView) : List HookWrite :=
  [.a v.a, .x v.x, .y v.y, .sp v.sp, .p v.p, .pc v.pc] ++ memoryWrites v.mem allAddresses

/-- Copying bytes from a memory changes memory alone: the copied addresses then read as in that memory, every other as
before. -/
theorem apply_memoryWrites (m : Memory) (addrs : List Word) (v : HookView) :
    ∃ m', (memoryWrites m addrs).foldl (fun u w => HookWrite.apply w u) v = { v with mem := m' } ∧
      ∀ a : Word, Memory.read m' a.toNat = if a ∈ addrs then Memory.read m a.toNat else Memory.read v.mem a.toNat := by
  induction addrs generalizing v with
  | nil => exact ⟨v.mem, rfl, fun a => by simp⟩
  | cons b rest ih =>
    obtain ⟨m', hfold, hread⟩ := ih (HookWrite.apply (.mem b (Memory.read m b.toNat)) v)
    refine ⟨m', hfold, fun a => (hread a).trans ?_⟩
    by_cases hab : a = b
    · subst hab; simp [HookWrite.apply]
    · have hne : a.toNat ≠ b.toNat := fun h => hab (BitVec.eq_of_toNat_eq h)
      simp [HookWrite.apply, hab, Memory.read_write_other _ _ hne]

/-- The answer that writes the whole of a state gives that state back, whatever canonical state it is asked about: the
two memories read alike everywhere, so they are the same data (log entry 13). -/
theorem toHook_toWrites {u v : HookView} (hu : Memory.wf u.mem = true) (hv : Memory.wf v.mem = true) (d : Verdict) :
    HookCall.toHook ⟨v.toWrites, d⟩ u = (v, d) := by
  obtain ⟨m', hfold, hread⟩ := apply_memoryWrites v.mem allAddresses { v with mem := u.mem }
  have hanswer : HookCall.toHook ⟨v.toWrites, d⟩ u = ({ v with mem := m' }, d) := by
    rw [HookCall.toHook, HookView.toWrites, List.foldl_append]
    exact congrArg (·, d) hfold
  have hm' : Memory.wf m' = true := by simpa only [hanswer] using HookCall.wf_toHook ⟨v.toWrites, d⟩ hu
  obtain rfl : m' = v.mem := canonicalMemoriesWithEqualBytesAreEqual m' v.mem hm' hv fun a =>
    (hread a).trans (if_pos (mem_allAddresses a))
  exact hanswer

/-- Settles O10: the pending answer writes the whole state that the hook gives back. -/
theorem everyHookStepIsSomeQueuedAnswer : Obligations.EveryHookStepIsSomeQueuedAnswer := fun h s hh hw =>
  ⟨⟨(h s.view).1.toWrites, (h s.view).2⟩,
    (step_of_answer rfl).trans (stepWith_congr (toHook_toWrites hw (hh s.view hw) _))⟩

end Sys2Proof.Machine
end
